-- ==== Sys2Proof/Word.lean ====
section
/-! DEFINITION. The word types of the block (00_scope R5, R10). -/

namespace Sys2Proof

/-- An unsigned 32-bit word (R5 `WORD`, R10). -/
abbrev Word := BitVec 32

/-- One byte of a byte sequence (R14). -/
abbrev Byte := BitVec 8

/-- A word address of the host register bus, `AW` = 8 bits (R5, R60). -/
abbrev Addr := BitVec 8

/-- Sixteen words: the state register, a keystream block, a data block (R5 `NSTATE`, `BLOCK`). -/
abbrev Block := Vector Word 16

end Sys2Proof
end

