-- ==== Sys2Proof/Syntax.lean ====
section
/-! DEFINITION. The seven commands of the opcode map (30_encoding R82), the registers a host can name
(10_state R43), the host's transactions (R89) and the statements of the host assembler (R90, R91). -/

namespace Sys2Proof

/-- The commands, one constructor for each row of the opcode table (R82). No command has an operand
field (R85): every operand is a fixed register. -/
inductive Instr where
  | nop
  | init
  | next
  | xor
  | crypt
  | wrctr
  | qrtest
  deriving DecidableEq, Repr

/-- A register the host can name (R43, R90). -/
inductive Reg where
  | cmd
  | status
  | config
  | activeConfig
  | ctrInLo
  | ctrInHi
  | key (i : Fin 8)
  | nonce (i : Fin 2)
  | dataIn (i : Fin 16)
  | dataOut (i : Fin 16)
  | state (i : Fin 16)
  | ks (i : Fin 16)
  deriving DecidableEq, Repr

/-- A bus transaction (R7, R13): one whole word to or from one word address (R64). -/
inductive Transaction where
  | write (a : Addr) (v : Word)
  | read (a : Addr)
  deriving DecidableEq, Repr

/-- One item of what the host still has to do (R92). -/
inductive HostOp where
  /-- One bus transaction. -/
  | bus (t : Transaction)
  /-- `rd <reg>, <imm32>`: a read whose value the program asserts (R90). -/
  | expect (a : Addr) (v : Word)
  /-- `wait`: reads of `STATUS`, at least one, until one returns `READY` = 1 (R91). -/
  | wait
  /-- `RST`: the reset input asserted and released as one action (R230); the transactions listed are
  those issued while it is asserted. -/
  | reset (during : List Transaction)
  /-- A transaction of a SECOND host on the same engine, which the spec refuses (R4, R72). -/
  | secondHost (t : Transaction)
  deriving DecidableEq, Repr

/-- A statement of the host assembler: the base statements of R90, the pseudo-instructions of R91,
and `RST` (R89). -/
inductive Stmt where
  | wr (r : Reg) (v : Word)
  | rd (r : Reg)
  | rdExpect (r : Reg) (v : Word)
  /-- `nop`, `init`, `next`, `xor`, `crypt`, `wrctr`, `qrtest`. -/
  | command (i : Instr)
  | cfg (keylen rounds : Nat)
  | wait
  | key (words : List Word)
  | nonce (n0 n1 : Word)
  | ctr (lo hi : Word)
  | run (i : Instr)
  | rst
  deriving DecidableEq, Repr

end Sys2Proof
end

