-- ==== Sys2Proof/WellFormed.lean ====
section
/-! DEFINITION. Which terms of the syntax, and which raw words, stand for something the spec admits. -/

namespace Sys2Proof

/-- Every command is well formed: a command has no operand to be out of range (R85). -/
def Instr.wf : Instr → Bool
  | .nop => true
  | .init => true
  | .next => true
  | .xor => true
  | .crypt => true
  | .wrctr => true
  | .qrtest => true

/-- R80: the reserved bits 31:8 of a command word are zero. -/
def wfCommandBits (c : Word) : Bool := c.extractLsb' 8 24 == 0

/-- R82, R83: the opcode of a command word is one of the map's. -/
def wfCommandOpcode (c : Word) : Bool := (c.extractLsb' 0 8).toNat < 7

/-- R89: a record of a read has `WDATA` = 0. -/
def wfRecord (r : BitVec 41) : Bool := r.extractLsb' 40 1 == 1 || r.extractLsb' 0 32 == 0

/-- R91: `cfg` takes a key length of 128 or 256, and `key` takes eight words, or four for a 128-bit key.
DESIGN CHOICE: `cfg` takes a round count below 256, one that fits `CONFIG.ROUNDS`; R91 sets no range
for it (log entry 16). -/
def Stmt.wf : Stmt → Bool
  | .wr _ _ => true
  | .rd _ => true
  | .rdExpect _ _ => true
  | .command _ => true
  | .cfg keylen rounds => (keylen == 128 || keylen == 256) && rounds < 256
  | .wait => true
  | .key words => words.length == 8 || words.length == 4
  | .nonce _ _ => true
  | .ctr _ _ => true
  | .run _ => true
  | .rst => true

end Sys2Proof
end

