-- ==== Sys2Proof/Decode.lean ====
section
/-! DEFINITION. Decoding and encoding: command words (30_encoding R80 to R83, R87) and transaction
records (R89). -/

namespace Sys2Proof

/-- What a command word decodes to (R81): a command, or an illegal word with the reason it is one. -/
inductive Decoded where
  | instr (i : Instr)
  /-- `OPCODE` is 0x07 to 0xFF (R83). -/
  | reservedOpcode
  /-- A bit of `RSV` is set (R83). -/
  | reservedBits
  deriving DecidableEq, Repr

/-- `OPCODE`, bits 7:0 (R80). -/
def opcodeField (c : Word) : BitVec 8 := c.extractLsb' 0 8

/-- `RSV`, bits 31:8 (R80). -/
def rsvField (c : Word) : BitVec 24 := c.extractLsb' 8 24

/-- The opcode map (R82). -/
def decodeOpcode (o : BitVec 8) : Decoded :=
  if o = 0x00 then .instr .nop
  else if o = 0x01 then .instr .init
  else if o = 0x02 then .instr .next
  else if o = 0x03 then .instr .xor
  else if o = 0x04 then .instr .crypt
  else if o = 0x05 then .instr .wrctr
  else if o = 0x06 then .instr .qrtest
  else .reservedOpcode

/-- The decoder: total on every 32-bit word (R81, R87). -/
def decode (c : Word) : Decoded :=
  if rsvField c = 0 then decodeOpcode (opcodeField c) else .reservedBits

/-- `OPCODE` of each command (R82). -/
def opcodeOf : Instr → BitVec 8
  | .nop => 0x00
  | .init => 0x01
  | .next => 0x02
  | .xor => 0x03
  | .crypt => 0x04
  | .wrctr => 0x05
  | .qrtest => 0x06

/-- The encoder: the command word of a command, `RSV` zero (R80, R82). -/
def encode (i : Instr) : Word := (0 : BitVec 24) ++ opcodeOf i

/-- The host's question: the command the decoder reads from the one word of an opcode-table row. The
bits above `nbits` are zero; a number that does not fit a command word is none. -/
def decodeTableWord (nbits w : Nat) : Option Instr :=
  if w % 2 ^ nbits < 2 ^ 32 then
    match decode (BitVec.ofNat 32 (w % 2 ^ nbits)) with
    | .instr i => some i
    | .reservedOpcode => none
    | .reservedBits => none
  else none

/-- The 41-bit record of a transaction: `WE`, `ADDR`, `WDATA` (R89). -/
def encodeTransaction : Transaction → BitVec 41
  | .write a v => (1 : BitVec 1) ++ a ++ v
  | .read a => (0 : BitVec 1) ++ a ++ (0 : Word)

/-- The transaction of a record; none for a read whose `WDATA` is not 0 (R89; log entry 14). -/
def decodeTransaction (r : BitVec 41) : Option Transaction :=
  if r.extractLsb' 40 1 = 1 then some (.write (r.extractLsb' 32 8) (r.extractLsb' 0 32))
  else if r.extractLsb' 0 32 = 0 then some (.read (r.extractLsb' 32 8))
  else none

end Sys2Proof
end

