-- ==== Sys2Proof/Config.lean ====
section
/-! DEFINITION. The block's open parameters and free values: constants with no body, so that nothing
in Lean can compute or prove one of their values. -/

namespace Sys2Proof

/-- R5 and R243 `LATENCY`, OPEN: the engine cycles BEYOND the first that an accepted command takes,
given the command word and the number of free values drawn before. Finite, and unbounded over draws,
so a command always completes and no number of host steps bounds its completion. Log entry 2. -/
opaque Config.latency : Word → Nat → Nat

/-- R242: what the n-th draw gives a read of `STATE`, `KS` or `DATA_OUT` while a command is in
flight. Log entry 3. -/
opaque Config.freeWord : Nat → Word

/-- R67 `BASE`, OPEN: the word address of the block that the platform maps a system byte address to,
or `none` where the system address is not the block's. Log entry 11. -/
opaque Config.base : Nat → Option Addr

end Sys2Proof
end

