-- ==== Sys2Proof/Machine/State.lean ====
section
/-! DEFINITION. The state of the block, of its engine and of the host that drives it, as plain data;
the reasons a step can stop; and the state after reset. -/

namespace Sys2Proof.Machine

/-- `CONFIG.KEYLEN`, one bit: 0 is a 128-bit key, 1 a 256-bit key (R26). -/
inductive KeyLen where
  | k128
  | k256
  deriving DecidableEq, Repr

/-- `CONFIG` and `ACTIVE_CONFIG` (R26, R27). Their reserved bits read 0 and hold nothing. -/
structure ConfigReg where
  keylen : KeyLen
  rounds : BitVec 8
  deriving DecidableEq, Repr

/-- The result codes of `STATUS.ERR` (R201). Log entry 7. -/
inductive ErrCode where
  | ok
  /-- Reserved, never raised (R203). -/
  | wrongKeyLength
  /-- Reserved, never raised (R203). -/
  | wrongNonceLength
  | invalidRounds
  | notInitialized
  | noKeystream
  | counterExhausted
  | illegalCommand
  deriving DecidableEq, Repr

/-- `PHASE` (R45). `STATUS.READY` is 1 exactly when it is `idle`. -/
inductive Phase where
  | idle
  | busy
  deriving DecidableEq, Repr

/-- The registers of the register map (R43), each in one place: `STATUS` (R28) is the five fields
`initialized` to `err` and the engine's `phase`. -/
structure Regs where
  /-- `ST[0..15]` (R20). -/
  st : Block
  /-- `CONFIG` (R26). -/
  config : ConfigReg
  /-- `ACTIVE_CONFIG` (R27). -/
  activeConfig : ConfigReg
  /-- `STATUS.INITIALIZED` (R30). -/
  initialized : Bool
  /-- `STATUS.KS_VALID` (R31). -/
  ksValid : Bool
  /-- `STATUS.EXHAUSTED` (R32). -/
  exhausted : Bool
  /-- `STATUS.OVERRUN` (R33). -/
  overrun : Bool
  /-- `STATUS.ERR` (R34). -/
  err : ErrCode
  /-- `KEY[0..7]` (R35). -/
  key : Vector Word 8
  /-- `NONCE[0..1]` (R36). -/
  nonce : Vector Word 2
  /-- `CTR_IN_LO` (R37). -/
  ctrInLo : Word
  /-- `CTR_IN_HI` (R37). -/
  ctrInHi : Word
  /-- `DATA_IN[0..15]` (R38). -/
  dataIn : Block
  /-- `DATA_OUT[0..15]` (R39). -/
  dataOut : Block
  /-- `KS[0..15]` (R40). -/
  ks : Block
  deriving DecidableEq, Repr

/-- The engine's hidden state (R44, R45). -/
structure Engine where
  phase : Phase
  /-- `CUR`: the accepted command word. -/
  cur : Word
  /-- `W[0..15]`: the working array. -/
  work : Block
  /-- `RC`: the round counter. -/
  rc : Nat
  deriving DecidableEq, Repr

/-- The host, and the choices the spec leaves open. These fields are the model's own. -/
structure Env where
  /-- What the host still has to do (R92). Log entry 1. -/
  host : List HostOp
  /-- The words the host's reads returned, oldest first: the observable behaviour (R18, R247). -/
  reads : List Word
  /-- Engine cycles left before the command in flight completes (R243). Log entry 2. -/
  delay : Nat
  /-- Latencies for the commands to come; when it is empty they are free values. Log entry 2. -/
  schedule : List Nat
  /-- How many free values have been drawn. Log entry 3. -/
  draws : Nat
  deriving DecidableEq, Repr

/-- The whole state. -/
structure State where
  regs : Regs
  engine : Engine
  env : Env
  deriving DecidableEq, Repr

/-- Why a step faults. No command raises a fault (R9, R87): both are about the HOST's program. -/
inductive Fault where
  /-- Raised by a host step: the program asserts the value of a read and the value differs (R90).
  Safe: the run stops, so no claim about its later states can be made. Log entry 9. -/
  | assertionFailed
  /-- Raised by a host step: the program asserts the value of a result register that it reads while a
  command is in flight, so it depends on a value the spec leaves open (R242; 93, end of part 1).
  Safe: the run stops. Log entry 9. -/
  | dependsOnBusyRead
  deriving DecidableEq, Repr

/-- Why a step is refused. -/
inductive Refusal where
  /-- A command that has no meaning yet: raised by no arm of `exec`. Safe. -/
  | notModelled (mnemonic : String)
  /-- Raised by a host step: a transaction of a second host on this engine, which the spec refuses
  (R4, R72; 93 U1). Safe: claims about such a system are out of reach. Log entry 10. -/
  | secondHost
  deriving DecidableEq, Repr

/-- What a step answers. -/
abbrev Answer := Host.Outcome State Fault Refusal

/-- Sixteen zero words. -/
def zeroBlock : Block := Vector.replicate 16 0

/-- The reset value of every register (R43). -/
def Regs.reset : Regs where
  st := zeroBlock
  config := ⟨.k128, 0⟩
  activeConfig := ⟨.k128, 0⟩
  initialized := false
  ksValid := false
  exhausted := false
  overrun := false
  err := .ok
  key := Vector.replicate 8 0
  nonce := Vector.replicate 2 0
  ctrInLo := 0
  ctrInHi := 0
  dataIn := zeroBlock
  dataOut := zeroBlock
  ks := zeroBlock

/-- R230, R231: `PHASE` is idle; `CUR`, `W` and `RC` hold no value a model needs. DESIGN CHOICE: they
are 0 (log entry 4). -/
def Engine.reset : Engine where
  phase := .idle
  cur := 0
  work := zeroBlock
  rc := 0

/-- The state after reset (R231), with a host that has nothing to do. DESIGN CHOICE: the values of
the model's own fields (log entries 1, 2, 3). -/
def State.reset : State where
  regs := Regs.reset
  engine := Engine.reset
  env := ⟨[], [], 0, [], 0⟩

end Sys2Proof.Machine
end

