-- ==== Sys2Proof/Machine/Flags.lean ====
section
/-! DEFINITION. `STATUS` as the host reads it (10_state R28), the error codes (60_exceptions R201),
and the conditions commands check or set: the legal round counts (R204) and the carry and wrap of the
block counter (43_block_generator R161). -/

namespace Sys2Proof.Machine

/-- The 4-bit code of each result (R201). -/
def errBits : ErrCode → BitVec 4
  | .ok => 0x0
  | .wrongKeyLength => 0x1
  | .wrongNonceLength => 0x2
  | .invalidRounds => 0x3
  | .notInitialized => 0x4
  | .noKeystream => 0x5
  | .counterExhausted => 0x6
  | .illegalCommand => 0x7

/-- `STATUS.READY` (R29, R45). -/
def ready (s : State) : Bool := s.engine.phase == .idle

/-- `STATUS` (R28): bit 0 `READY`, 1 `INITIALIZED`, 2 `KS_VALID`, 3 `EXHAUSTED`, 4 `OVERRUN`, 7:5
read 0, 11:8 `ERR`, 31:12 read 0. -/
def statusWord (s : State) : Word :=
  (0 : BitVec 20) ++ errBits s.regs.err ++ (0 : BitVec 3) ++ BitVec.ofBool s.regs.overrun
    ++ BitVec.ofBool s.regs.exhausted ++ BitVec.ofBool s.regs.ksValid
    ++ BitVec.ofBool s.regs.initialized ++ BitVec.ofBool (ready s)

/-- The round counts INIT accepts, exactly {8, 12, 20} (R107, R204; conflict C4). -/
def roundsLegal (r : BitVec 8) : Bool := r == 8 || r == 12 || r == 20

/-- A block counter after an increment, and whether it wrapped from 2^64-1 to 0. -/
structure CtrNext where
  lo : Word
  hi : Word
  wrapped : Bool
  deriving DecidableEq, Repr

/-- `CtrInc` (R161): the low word by 1, the carry into the high word, and the wrap. -/
def ctrInc (lo hi : Word) : CtrNext :=
  let lo' := lo + 1
  let hi' := if lo' = 0 then hi + 1 else hi
  ⟨lo', hi', lo' == 0 && hi' == 0⟩

end Sys2Proof.Machine
end

