-- ==== Sys2Proof/Machine/Operands.lean ====
section
/-! DEFINITION. The operands of commands and transactions: the register map (10_state R43), what a
read of each register returns, the constant block (R22), the key words (R23), the block counter
(R20), and the byte views of words and blocks (00_scope R14, 20_memory R62, R63). -/

namespace Sys2Proof.Machine

/-- `SIGMA`, the constant of a 256-bit key (R22). PRESUMED by the spec itself; log entry 6. -/
def sigma : Vector Word 4 := #v[0x61707865, 0x3320646e, 0x79622d32, 0x6b206574]

/-- `TAU`, the constant of a 128-bit key (R22). PRESUMED by the spec itself; log entry 6. -/
def tau : Vector Word 4 := #v[0x61707865, 0x3120646e, 0x79622d36, 0x6b206574]

/-- The constant block of a key length (R22, R101). -/
def constantOf : KeyLen → Vector Word 4
  | .k256 => sigma
  | .k128 => tau

/-- The eight key words of the state register: a 128-bit key fills both halves (R23, R102). -/
def keyWords (k : KeyLen) (key : Vector Word 8) : Vector Word 8 :=
  match k with
  | .k256 => key
  | .k128 => #v[key[0], key[1], key[2], key[3], key[0], key[1], key[2], key[3]]

/-- `CTR = {ST[13], ST[12]}` (R20). -/
def counter (b : Block) : BitVec 64 := b[13] ++ b[12]

/-- The word address of a register (R43). -/
def regAddr : Reg → Addr
  | .cmd => 0x00
  | .status => 0x01
  | .config => 0x02
  | .activeConfig => 0x03
  | .ctrInLo => 0x04
  | .ctrInHi => 0x05
  | .key i => 0x08 + BitVec.ofNat 8 i
  | .nonce i => 0x10 + BitVec.ofNat 8 i
  | .dataIn i => 0x20 + BitVec.ofNat 8 i
  | .dataOut i => 0x30 + BitVec.ofNat 8 i
  | .state i => 0x40 + BitVec.ofNat 8 i
  | .ks i => 0x50 + BitVec.ofNat 8 i

/-- The index of an address in the array of `n` registers that starts at `base`. -/
def arrayIndex (base n : Nat) (a : Addr) : Option (Fin n) :=
  if h : base ≤ a.toNat ∧ a.toNat < base + n then some ⟨a.toNat - base, by omega⟩ else none

/-- The register at a word address; none is unmapped (R43). -/
def regAt (a : Addr) : Option Reg :=
  if a = 0x00 then some .cmd
  else if a = 0x01 then some .status
  else if a = 0x02 then some .config
  else if a = 0x03 then some .activeConfig
  else if a = 0x04 then some .ctrInLo
  else if a = 0x05 then some .ctrInHi
  else
    (arrayIndex 0x08 8 a).map .key
      <|> (arrayIndex 0x10 2 a).map .nonce
      <|> (arrayIndex 0x20 16 a).map .dataIn
      <|> (arrayIndex 0x30 16 a).map .dataOut
      <|> (arrayIndex 0x40 16 a).map .state
      <|> (arrayIndex 0x50 16 a).map .ks

/-- The access column of the register map (R43). -/
inductive Access where
  | readWrite
  | readOnly
  | writeOnly
  deriving DecidableEq, Repr

/-- How the host may access each register (R43). -/
def regAccess : Reg → Access
  | .cmd => .writeOnly
  | .status => .readOnly
  | .config => .readWrite
  | .activeConfig => .readOnly
  | .ctrInLo => .readWrite
  | .ctrInHi => .readWrite
  | .key _ => .readWrite
  | .nonce _ => .readWrite
  | .dataIn _ => .readWrite
  | .dataOut _ => .readOnly
  | .state _ => .readOnly
  | .ks _ => .readOnly

/-- The result registers, whose reads are open while a command is in flight (R242). -/
def isResult : Reg → Bool
  | .state _ => true
  | .ks _ => true
  | .dataOut _ => true
  | .cmd => false
  | .status => false
  | .config => false
  | .activeConfig => false
  | .ctrInLo => false
  | .ctrInHi => false
  | .key _ => false
  | .nonce _ => false
  | .dataIn _ => false

/-- Bit 0 of `CONFIG` for a key length (R26). -/
def keyLenBit : KeyLen → BitVec 1
  | .k128 => 0
  | .k256 => 1

/-- `CONFIG` as it reads: `zext_32({ROUNDS, 7'b0, KEYLEN})` (R26, R88). -/
def configWord (c : ConfigReg) : Word :=
  (0 : BitVec 16) ++ c.rounds ++ (0 : BitVec 7) ++ keyLenBit c.keylen

/-- What a write of a word stores in `CONFIG`: bit 0 and bits 15:8, the rest discarded (R26). -/
def configOfWord (v : Word) : ConfigReg :=
  ⟨if v.getLsbD 0 then .k256 else .k128, v.extractLsb' 8 8⟩

/-- The current value of a register; `CMD` reads 0 (R42, R65). -/
def readReg (r : Reg) (s : State) : Word :=
  match r with
  | .cmd => 0
  | .status => statusWord s
  | .config => configWord s.regs.config
  | .activeConfig => configWord s.regs.activeConfig
  | .ctrInLo => s.regs.ctrInLo
  | .ctrInHi => s.regs.ctrInHi
  | .key i => s.regs.key[i]
  | .nonce i => s.regs.nonce[i]
  | .dataIn i => s.regs.dataIn[i]
  | .dataOut i => s.regs.dataOut[i]
  | .state i => s.regs.st[i]
  | .ks i => s.regs.ks[i]

/-- Two blocks word by word. -/
def zipWords (f : Word → Word → Word) (x y : Block) : Block :=
  ⟨(List.zipWith f x.toList y.toList).toArray, by simp⟩

/-- Byte j of a word, `w[8j+7:8j]` (R14, R62). -/
def byteOf (w : Word) (j : Nat) : Byte := w.extractLsb' (8 * j) 8

/-- `LE(w)` (R14). -/
def leBytes (w : Word) : List Byte := [byteOf w 0, byteOf w 1, byteOf w 2, byteOf w 3]

/-- `Word(b0, b1, b2, b3)` (R14). -/
def wordOfBytes (b0 b1 b2 b3 : Byte) : Word :=
  b0.setWidth 32 ||| b1.setWidth 32 <<< 8 ||| b2.setWidth 32 <<< 16 ||| b3.setWidth 32 <<< 24

/-- `Ser(X[0..15])`, the 64-byte view of sixteen words (R14, R147). -/
def ser (x : Block) : List Byte := x.toList.flatMap leBytes

end Sys2Proof.Machine
end

