-- ==== Sys2Proof/Machine/Ops.lean ====
section
/-! DEFINITION. The named operations: the word operator of 00_scope R11 beside modular addition and
exclusive or, a bus read and a bus write (20_memory R65; 70_reset_and_hazards R240 to R242), the
acceptance and the completion of a command (R240, R243; 60_exceptions R200), and reset (R230). -/

namespace Sys2Proof.Machine

/-- `rotl32` (R11). -/
def rotl32 (x : Word) (n : Nat) : Word := (x <<< n) ||| (x >>> (32 - n))

/-- The completion of a command with a result code, on the state its other writes have made: `ERR` is
written and `PHASE` becomes idle (R34, R243). A command that FAILS completes the state it found, so
`ERR` is all it writes (R200): this is the block's one way to report an error, and it takes no trap
(R211). -/
def complete (e : ErrCode) (s : State) : State :=
  { s with regs.err := e, engine.phase := .idle }

/-- The completion of a word that is no command (R81, R208). -/
def completeIllegal (s : State) : State := complete .illegalCommand s

/-- The latency beyond the first engine cycle of the command accepted next, and the host's side of the
state with the choice taken. Log entry 2. -/
def takeLatency (c : Word) (e : Env) : Env :=
  match e.schedule with
  | [] => { e with delay := Config.latency c e.draws, draws := e.draws + 1 }
  | d :: rest => { e with delay := d, schedule := rest }

/-- Acceptance of a command word (R240): `CUR` and `PHASE`, no other register. -/
def accept (c : Word) (s : State) : State :=
  { s with engine.phase := .busy, engine.cur := c, env := takeLatency c s.env }

/-- A write of a word to a register while no command is in flight (R65): the read/write registers
store it, `CMD` hands it to the engine, and the read-only registers ignore it. -/
def writeReg (r : Reg) (v : Word) (s : State) : State :=
  match r with
  | .cmd => accept v s
  | .config => { s with regs.config := configOfWord v }
  | .ctrInLo => { s with regs.ctrInLo := v }
  | .ctrInHi => { s with regs.ctrInHi := v }
  | .key i => { s with regs.key := s.regs.key.set i v }
  | .nonce i => { s with regs.nonce := s.regs.nonce.set i v }
  | .dataIn i => { s with regs.dataIn := s.regs.dataIn.set i v }
  | .status => s
  | .activeConfig => s
  | .dataOut _ => s
  | .state _ => s
  | .ks _ => s

/-- A write dropped because a command is in flight (R241). -/
def dropWrite (s : State) : State := { s with regs.overrun := true }

/-- `BusWrite(a, v)` (R13, R65, R240, R241). -/
def busWrite (a : Addr) (v : Word) (s : State) : State :=
  match s.engine.phase with
  | .busy => dropWrite s
  | .idle =>
    match regAt a with
    | none => s
    | some r => writeReg r v s

/-- `BusRead(a)` (R13, R65): the register's value, 0 where unmapped, and a free value for a result
register while a command is in flight (R242). -/
def busRead (a : Addr) (s : State) : Word :=
  match regAt a with
  | none => 0
  | some r =>
    match s.engine.phase with
    | .idle => readReg r s
    | .busy => if isResult r then Config.freeWord s.env.draws else readReg r s

/-- Reset (R230): every register of the block and its engine at its reset value, a command in flight
abandoned. What the host has done, will do and has been given stays (log entry 15). -/
def resetBlock (s : State) : State :=
  { s with regs := Regs.reset, engine := Engine.reset }

end Sys2Proof.Machine
end

