-- ==== Sys2Proof/Machine/Bus.lean ====
section
/-! DEFINITION. What the host does in one step of its own (00_scope R7; 30_encoding R90 to R92), and
which of the two agents moves next (70_reset_and_hazards R243). -/

namespace Sys2Proof.Machine

/-- The host's program without its first item. -/
def popHost (s : State) : State := { s with env.host := s.env.host.tail }

/-- A read seen by the host: the word is recorded, and the next free value is another one (R242). Reads
change nothing in the block (R66). -/
def recordRead (v : Word) (s : State) : State :=
  { s with env.reads := s.env.reads ++ [v], env.draws := s.env.draws + 1 }

/-- One transaction (R65, R69). -/
def transact (t : Transaction) (s : State) : State :=
  match t with
  | .write a v => busWrite a v s
  | .read a => recordRead (busRead a s) s

/-- One transaction issued while the reset input is asserted: a write does nothing and a read returns 0
(R230). -/
def transactInReset (s : State) (t : Transaction) : State :=
  match t with
  | .write _ _ => s
  | .read _ => recordRead 0 s

/-- `Reset()` as one atomic host action, with the transactions issued during it (R230). -/
def resetAction (during : List Transaction) (s : State) : State :=
  during.foldl transactInReset (resetBlock s)

/-- One read of the `wait` loop (R91): the loop ends at a read that returns `READY` = 1. -/
def waitRead (s : State) : State :=
  let v := busRead (regAddr .status) s
  if v.getLsbD 0 then popHost (recordRead v s) else recordRead v s

/-- Whether a read of an address now would return an open value (R242). -/
def readIsOpen (a : Addr) (s : State) : Bool :=
  match s.engine.phase, regAt a with
  | .busy, some r => isResult r
  | .busy, none => false
  | .idle, _ => false

/-- A read whose value the program asserts (R90). Log entry 9. -/
def expectRead (a : Addr) (v : Word) (s : State) : Answer :=
  if readIsOpen a s then .fault .dependsOnBusyRead
  else if busRead a s = v then .next (popHost (recordRead v s))
  else .fault .assertionFailed

/-- One step of the host. A host with nothing left to do changes nothing (R247). -/
def hostStep (s : State) : Answer :=
  match s.env.host with
  | [] => .next s
  | .bus t :: _ => .next (transact t (popHost s))
  | .expect a v :: _ => expectRead a v s
  | .wait :: _ => .next (waitRead s)
  | .reset during :: _ => .next (resetAction during (popHost s))
  | .secondHost _ :: _ => .refused .secondHost

/-- Which agent moves next, with the state it moves in. -/
inductive Turn where
  | engine
  | host (s : State)
  deriving DecidableEq, Repr

/-- The engine completes the command in flight once its latency has passed (R243); until then, and
whenever it is idle, the host moves, and each of its moves is one engine cycle. Log entry 2. -/
def nextTurn (s : State) : Turn :=
  match s.engine.phase, s.env.delay with
  | .idle, _ => .host s
  | .busy, 0 => .engine
  | .busy, d + 1 => .host { s with env.delay := d }

/-- A read by its system byte address, where the platform maps one to the block (R67). Log entry 11. -/
def systemRead (p : Nat) (s : State) : Option Word := (Config.base p).map fun a => busRead a s

/-- A write by its system byte address (R67). Log entry 11. -/
def systemWrite (p : Nat) (v : Word) (s : State) : Option State :=
  (Config.base p).map fun a => busWrite a v s

end Sys2Proof.Machine
end

