-- ==== Sys2Proof/Machine/Initializer.lean ====
section
/-! DEFINITION. NOP and INIT (40_initializer). -/

namespace Sys2Proof.Machine

/-- NOP (R108): clears `OVERRUN`, `ERR` is OK. -/
def execNop (s : State) : Answer := .next (complete .ok { s with regs.overrun := false })

/-- The state register INIT builds: constant, key words, counter 0, nonce (R101 to R104). -/
def initBlock (k : KeyLen) (key : Vector Word 8) (nonce : Vector Word 2) : Block :=
  let cw := constantOf k
  let kw := keyWords k key
  #v[cw[0], cw[1], cw[2], cw[3],
    kw[0], kw[1], kw[2], kw[3],
    kw[4], kw[5], kw[6], kw[7],
    0, 0, nonce[0], nonce[1]]

/-- The registers after a successful INIT, but for `ERR` (R100, R105, R106). -/
def initRegs (r : Regs) : Regs :=
  { r with
    st := initBlock r.config.keylen r.key r.nonce
    activeConfig := r.config
    ks := zeroBlock
    initialized := true
    ksValid := false
    exhausted := false }

/-- INIT (R100): the round count is checked before any write (R107, R109). -/
def execInit (s : State) : Answer :=
  if roundsLegal s.regs.config.rounds then .next (complete .ok { s with regs := initRegs s.regs })
  else .next (complete .invalidRounds s)

end Sys2Proof.Machine
end

