-- ==== Sys2Proof/Machine/QuarterRound.lean ====
section
/-! DEFINITION. The quarter-round (41_quarter_round R120, R122) and QRTEST (R124). -/

namespace Sys2Proof.Machine

/-- The four words of a quarter-round. -/
structure Quad where
  a : Word
  b : Word
  c : Word
  d : Word
  deriving DecidableEq, Repr

/-- `QR(a, b, c, d)` (R120): twelve operations, each on the values the one before left. -/
def qr (q : Quad) : Quad :=
  let a := q.a + q.b
  let d := rotl32 (q.d ^^^ a) 16
  let c := q.c + d
  let b := rotl32 (q.b ^^^ c) 12
  let a := a + b
  let d := rotl32 (d ^^^ a) 8
  let c := c + d
  let b := rotl32 (b ^^^ c) 7
  ⟨a, b, c, d⟩

/-- Four indices into a block, in the order (a, b, c, d) of R120. -/
structure Lane where
  ia : Fin 16
  ib : Fin 16
  ic : Fin 16
  id : Fin 16
  deriving DecidableEq, Repr

/-- The quadruple a lane reads (R122). -/
def laneIn (w : Block) (l : Lane) : Quad := ⟨w[l.ia], w[l.ib], w[l.ic], w[l.id]⟩

/-- `QRW(W, ia, ib, ic, id)` (R122). -/
def qrw (w : Block) (l : Lane) : Block :=
  let q := qr (laneIn w l)
  (((w.set l.ia q.a).set l.ib q.b).set l.ic q.c).set l.id q.d

/-- QRTEST (R124): `DATA_OUT[0..3]` from one quarter-round on `DATA_IN[0..3]`. -/
def execQrtest (s : State) : Answer :=
  let q := qr ⟨s.regs.dataIn[0], s.regs.dataIn[1], s.regs.dataIn[2], s.regs.dataIn[3]⟩
  .next (complete .ok
    { s with regs.dataOut := (((s.regs.dataOut.set 0 q.a).set 1 q.b).set 2 q.c).set 3 q.d })

end Sys2Proof.Machine
end

