-- ==== Sys2Proof/Machine/Permutation.lean ====
section
/-! DEFINITION. The passes and the round multiplexer, the permutation, the feed-forward and the block
function (42_permutation R140 to R148). -/

namespace Sys2Proof.Machine

/-- The four column index sets (R140). -/
def columnLanes : List Lane := [⟨0, 4, 8, 12⟩, ⟨1, 5, 9, 13⟩, ⟨2, 6, 10, 14⟩, ⟨3, 7, 11, 15⟩]

/-- The four diagonal index sets (R141). -/
def diagonalLanes : List Lane := [⟨0, 5, 10, 15⟩, ⟨1, 6, 11, 12⟩, ⟨2, 7, 8, 13⟩, ⟨3, 4, 9, 14⟩]

/-- One pass: the quarter-rounds of its lanes (R123, R142). -/
def runLanes (lanes : List Lane) (w : Block) : Block := lanes.foldl qrw w

/-- `ColumnPass(W)` (R140). -/
def columnPass (w : Block) : Block := runLanes columnLanes w

/-- `DiagonalPass(W)` (R141). -/
def diagonalPass (w : Block) : Block := runLanes diagonalLanes w

/-- `SingleRound(W, r)`, the round multiplexer (R142). -/
def singleRound (w : Block) (r : Nat) : Block :=
  if r % 2 = 0 then columnPass w else diagonalPass w

/-- `DoubleRound(W)` (R144). -/
def doubleRound (w : Block) : Block := diagonalPass (columnPass w)

/-- `Permute(S, R)`: the single rounds 0 to R-1 (R145). Total in R; log entry 8. -/
def permute (s : Block) : Nat → Block
  | 0 => s
  | r + 1 => singleRound (permute s r) r

/-- `FeedForward(W, S)` (R146). -/
def feedForward (w s : Block) : Block := zipWords (· + ·) w s

/-- `Block(S, R)` (R148). -/
def blockOf (s : Block) (rounds : Nat) : Block := feedForward (permute s rounds) s

end Sys2Proof.Machine
end

