-- ==== Sys2Proof/Machine/BlockGenerator.lean ====
section
/-! DEFINITION. NEXT and WRCTR (43_block_generator). -/

namespace Sys2Proof.Machine

/-- The single rounds of a block, `ACTIVE_CONFIG.ROUNDS` (R27, R145). -/
def activeRounds (s : State) : Nat := s.regs.activeConfig.rounds.toNat

/-- The engine's run of the permutation on a copy of `ST` (R44, R145): `W` ends as the permuted copy
and `RC` at R. DEDUCED; unobservable; log entry 5. -/
def runPermutation (s : State) : State :=
  { s with engine.work := permute s.regs.st (activeRounds s), engine.rc := activeRounds s }

/-- The state register with its counter words replaced (R20). -/
def withCounter (b : Block) (lo hi : Word) : Block := (b.set 12 lo).set 13 hi

/-- One block into `KS` and the counter advanced, the part NEXT and CRYPT share (R160, R183): the block
is of the state before the increment (R146). -/
def generate (s : State) : State :=
  let p := runPermutation s
  let c := ctrInc s.regs.st[12] s.regs.st[13]
  { p with
    regs.ks := feedForward p.engine.work s.regs.st
    regs.st := withCounter s.regs.st c.lo c.hi
    regs.ksValid := true
    regs.exhausted := c.wrapped }

/-- NEXT (R160, R162, R163). -/
def execNext (s : State) : Answer :=
  if s.regs.initialized = false then .next (complete .notInitialized s)
  else if s.regs.exhausted = true then .next (complete .counterExhausted s)
  else .next (complete .ok (generate s))

/-- WRCTR (R164). -/
def execWrctr (s : State) : Answer :=
  if s.regs.initialized = false then .next (complete .notInitialized s)
  else .next (complete .ok
    { s with
      regs.st := withCounter s.regs.st s.regs.ctrInLo s.regs.ctrInHi
      regs.exhausted := false })

end Sys2Proof.Machine
end

