-- ==== Sys2Proof/Machine/KeystreamApplier.lean ====
section
/-! DEFINITION. XOR and CRYPT (44_keystream_applier). -/

namespace Sys2Proof.Machine

/-- The XOR combiner, word by word (R180, R181). -/
def xorBlock (p k : Block) : Block := zipWords (· ^^^ ·) p k

/-- `DATA_OUT` from `DATA_IN` and `KS` (R180). -/
def applyKeystream (s : State) : State :=
  { s with regs.dataOut := xorBlock s.regs.dataIn s.regs.ks }

/-- XOR (R180): it keeps `KS` and `KS_VALID` (R182, conflict C2). -/
def execXor (s : State) : Answer :=
  if s.regs.initialized = false then .next (complete .notInitialized s)
  else if s.regs.ksValid = false then .next (complete .noKeystream s)
  else .next (complete .ok (applyKeystream s))

/-- CRYPT (R183): the block generated goes to `KS` and through the combiner, as one command. -/
def execCrypt (s : State) : Answer :=
  if s.regs.initialized = false then .next (complete .notInitialized s)
  else if s.regs.exhausted = true then .next (complete .counterExhausted s)
  else .next (complete .ok (applyKeystream (generate s)))

end Sys2Proof.Machine
end

