-- ==== Sys2Proof/Machine/Dispatch.lean ====
section
/-! DEFINITION. The command an engine step performs: one arm for each command. -/

namespace Sys2Proof.Machine

def exec (i : Instr) (s : State) : Host.Outcome State Fault Refusal :=
  match i with
  | .nop => Sys2Proof.Machine.execNop s
  | .init => Sys2Proof.Machine.execInit s
  | .next => Sys2Proof.Machine.execNext s
  | .xor => Sys2Proof.Machine.execXor s
  | .crypt => Sys2Proof.Machine.execCrypt s
  | .wrctr => Sys2Proof.Machine.execWrctr s
  | .qrtest => Sys2Proof.Machine.execQrtest s

end Sys2Proof.Machine
end

