-- ==== Sys2Proof/Machine/Step.lean ====
section
/-! DEFINITION. One step of the block and its host: the engine's completion of the command in flight,
or one action of the host (00_scope R7; 70_reset_and_hazards R243). -/

namespace Sys2Proof.Machine

/-- The completion step: the accepted word is decoded and performed (R81, R243). -/
def engineStep (s : State) : Answer :=
  match decode s.engine.cur with
  | .instr i => exec i s
  | .reservedOpcode => .next (completeIllegal s)
  | .reservedBits => .next (completeIllegal s)

def step (s : State) : Host.Outcome State Fault Refusal :=
  match nextTurn s with
  | .engine => engineStep s
  | .host t => hostStep t

/-- `s` with a command word accepted and its latency passed, so that the very next step is its
completion. The block fetches nothing (R8): this stands for the host's write of the word to `CMD`
(R240). Log entry 1. -/
def State.withFetchWord (s : State) (nbits w : Nat) : State :=
  { s with
    engine.phase := .busy
    engine.cur := BitVec.ofNat 32 (w % 2 ^ nbits)
    env.delay := 0 }

end Sys2Proof.Machine
end

