-- ==== Sys2Proof/Machine/Assembler.lean ====
section
/-! DEFINITION. The host assembler (30_encoding R90), the expansions of its pseudo-instructions (R91),
and the written forms of a transaction (R89). Spelling: log entry 13. -/

namespace Sys2Proof.Machine

/-- A write of a register by its name. -/
def writeOp (r : Reg) (v : Word) : HostOp := .bus (.write (regAddr r) v)

/-- The `CONFIG` word of `cfg`: `(<rounds> << 8) | <keylen>`, 128 encoded 0 and 256 encoded 1 (R91).
Defined for every round count; which ones a program text may name is log entry 16. -/
def cfgWord (keylen rounds : Nat) : Word :=
  BitVec.ofNat 32 rounds <<< 8 ||| (if keylen = 256 then 1 else 0)

/-- The write of a command word, what each command mnemonic stands for (R91). -/
def commandOp (i : Instr) : HostOp := writeOp .cmd (encode i)

/-- The writes of key words to `KEY0`, `KEY1`, … (R91). -/
def keyOps (words : List Word) : List HostOp :=
  (List.zip (List.finRange 8) words).map fun (i, v) => writeOp (.key i) v

/-- What a statement expands to (R90, R91). -/
def expand : Stmt → List HostOp
  | .wr r v => [writeOp r v]
  | .rd r => [.bus (.read (regAddr r))]
  | .rdExpect r v => [.expect (regAddr r) v]
  | .command i => [commandOp i]
  | .cfg keylen rounds => [writeOp .config (cfgWord keylen rounds)]
  | .wait => [.wait]
  | .key words => keyOps words
  | .nonce n0 n1 => [writeOp (.nonce 0) n0, writeOp (.nonce 1) n1]
  | .ctr lo hi => [writeOp .ctrInLo lo, writeOp .ctrInHi hi]
  | .run i => [commandOp i, .wait]
  | .rst => [.reset []]

/-- A host program (R92). -/
def assemble (p : List Stmt) : List HostOp := p.flatMap expand

/-- The digit characters, as far as base 16. -/
def digits : List Char := "0123456789abcdef".toList

/-- `k` hexadecimal digits of a number. -/
def hexText : Nat → Nat → List Char
  | 0, _ => []
  | k + 1, n => hexText k (n / 16) ++ [digits.getD (n % 16) '0']

/-- An array index, 0 to 15, in decimal. -/
def indexText (n : Nat) : List Char :=
  if n < 10 then [digits.getD n '0'] else ['1', digits.getD (n - 10) '0']

/-- The name of a register (R90). -/
def regName : Reg → List Char
  | .cmd => "CMD".toList
  | .status => "STATUS".toList
  | .config => "CONFIG".toList
  | .activeConfig => "ACTIVE_CONFIG".toList
  | .ctrInLo => "CTR_IN_LO".toList
  | .ctrInHi => "CTR_IN_HI".toList
  | .key i => "KEY".toList ++ indexText i
  | .nonce i => "NONCE".toList ++ indexText i
  | .dataIn i => "DATA_IN".toList ++ indexText i
  | .dataOut i => "DATA_OUT".toList ++ indexText i
  | .state i => "STATE".toList ++ indexText i
  | .ks i => "KS".toList ++ indexText i

/-- Every register, in the order of its address. -/
def allRegs : List Reg :=
  [.cmd, .status, .config, .activeConfig, .ctrInLo, .ctrInHi]
    ++ (List.finRange 8).map .key ++ (List.finRange 2).map .nonce
    ++ (List.finRange 16).map .dataIn ++ (List.finRange 16).map .dataOut
    ++ (List.finRange 16).map .state ++ (List.finRange 16).map .ks

/-- `W aa dddddddd` for a write and `R aa` for a read (R89). -/
def transactionText : Transaction → List Char
  | .write a v => "W ".toList ++ hexText 2 a.toNat ++ [' '] ++ hexText 8 v.toNat
  | .read a => "R ".toList ++ hexText 2 a.toNat

/-- A token put before the tokens after it; an empty one is left out. -/
def flushToken (t : List Char) (rest : List (List Char)) : List (List Char) :=
  if t.isEmpty then rest else t :: rest

/-- The tokens of a line: separated by blanks and commas, up to a `;` (R90). -/
def tokens : List Char → List Char → List (List Char)
  | [], t => flushToken t []
  | c :: cs, t =>
    if c = ';' then flushToken t []
    else if c = ' ' ∨ c = ',' ∨ c = '\t' then flushToken t (tokens cs [])
    else tokens cs (t ++ [c])

/-- The value of a digit below a base, in capitals or not. -/
def digitValue (base : Nat) (c : Char) : Option Nat :=
  let n := digits.idxOf c.toLower
  if n < base then some n else none

/-- The value of a non-empty string of digits. -/
def digitsValue (base : Nat) (t : List Char) : Option Nat :=
  if t.isEmpty then none
  else t.foldlM (fun acc c => (digitValue base c).map fun d => acc * base + d) 0

/-- A number: `0x` and hexadecimal digits, or decimal digits. -/
def parseNat : List Char → Option Nat
  | '0' :: 'x' :: ds => digitsValue 16 ds
  | ds => digitsValue 10 ds

/-- An `<imm32>` (R90). -/
def parseWord (t : List Char) : Option Word :=
  (parseNat t).bind fun n => if n < 2 ^ 32 then some (BitVec.ofNat 32 n) else none

/-- A register by its name (R90). -/
def parseReg (t : List Char) : Option Reg := allRegs.find? fun r => regName r == t

/-- The command mnemonics of the assembler (R91). -/
def commandNames : List (List Char × Instr) :=
  [("nop".toList, .nop), ("init".toList, .init), ("next".toList, .next), ("xor".toList, .xor),
    ("crypt".toList, .crypt), ("wrctr".toList, .wrctr), ("qrtest".toList, .qrtest)]

/-- A command by its mnemonic (R91). -/
def parseCommand (t : List Char) : Option Instr := commandNames.lookup t

/-- The statement of a line's tokens: its first token and its operands (R90, R91). -/
def parseTokens (op : List Char) (args : List (List Char)) : Option Stmt :=
  if op = "wr".toList then
    match args with
    | [r, v] => (parseReg r).bind fun r => (parseWord v).map (.wr r)
    | _ => none
  else if op = "rd".toList then
    match args with
    | [r] => (parseReg r).map .rd
    | [r, v] => (parseReg r).bind fun r => (parseWord v).map (.rdExpect r)
    | _ => none
  else if op = "cfg".toList then
    match args with
    | [k, n] => (parseNat k).bind fun k => (parseNat n).map (.cfg k)
    | _ => none
  else if op = "key".toList then (args.mapM parseWord).map .key
  else if op = "nonce".toList then
    match args with
    | [a, b] => (parseWord a).bind fun a => (parseWord b).map (.nonce a)
    | _ => none
  else if op = "ctr".toList then
    match args with
    | [a, b] => (parseWord a).bind fun a => (parseWord b).map (.ctr a)
    | _ => none
  else if op = "run".toList then
    match args with
    | [c] => (parseCommand c).map .run
    | _ => none
  else if !args.isEmpty then none
  else if op = "wait".toList then some .wait
  else if op = "RST".toList then some .rst
  else (parseCommand op).map .command

/-- One line of a host program: no statement where it is blank or a comment (R90); none where it is no
well-formed statement, a `cfg` of 256 rounds or more among them (log entry 16). -/
def parseLine (line : String) : Option (List Stmt) :=
  match tokens line.toList [] with
  | [] => some []
  | op :: args => (parseTokens op args).bind fun st => if st.wf then some [st] else none

/-- The host program that a text's lines stand for (R92). -/
def parseProgram (lines : List String) : Option (List HostOp) :=
  (lines.mapM parseLine).map fun p => assemble p.flatten

end Sys2Proof.Machine
end

