-- ==== Sys2Proof/Safety.lean ====
section
/-! DEFINITION. What claims speak of: the invariants of 10_state R48, the host's duty and the hazard it
avoids (70_reset_and_hazards R244), the end and the result of a run (R247), and repeated NEXT
commands (43_block_generator R165). -/

namespace Sys2Proof.Machine

/-- The invariants of R48, clause by clause. -/
structure Inv (r : Regs) : Prop where
  ksValid_initialized : r.ksValid = true → r.initialized = true
  exhausted_initialized : r.exhausted = true → r.initialized = true ∧ r.ksValid = true
  initialized_rounds : r.initialized = true → roundsLegal r.activeConfig.rounds = true
  initialized_constant : r.initialized = true →
    ∀ i (_ : i < 4), r.st[i] = (constantOf r.activeConfig.keylen)[i]
  initialized_key128 : r.initialized = true → r.activeConfig.keylen = .k128 →
    ∀ i (_ : i < 4), r.st[4 + i] = r.st[8 + i]
  exhausted_counter : r.exhausted = true → r.st[12] = 0 ∧ r.st[13] = 0

/-- Before the first successful INIT after reset the cipher registers hold their reset values
(R27, R41, R231). DEDUCED: no other command writes them while `INITIALIZED` is 0. -/
structure Pristine (r : Regs) : Prop where
  st_zero : r.initialized = false → r.st = zeroBlock
  ks_zero : r.initialized = false → r.ks = zeroBlock
  activeConfig_zero : r.initialized = false → r.activeConfig = ⟨.k128, 0⟩

/-- Whether a program's next item is `wait`. -/
def startsWithWait : List HostOp → Bool
  | .wait :: _ => true
  | .bus _ :: _ => false
  | .expect _ _ :: _ => false
  | .reset _ :: _ => false
  | .secondHost _ :: _ => false
  | [] => false

/-- Whether an item writes a command word to `CMD`. -/
def writesCommand : HostOp → Bool
  | .bus (.write a _) => a == regAddr .cmd
  | .bus (.read _) => false
  | .expect _ _ => false
  | .wait => false
  | .reset _ => false
  | .secondHost _ => false

/-- The host's duty over a program (R244): a `wait` follows every write to `CMD`. -/
def dutifulProgram : List HostOp → Bool
  | [] => true
  | op :: rest => (!writesCommand op || startsWithWait rest) && dutifulProgram rest

/-- The host's duty over a state: what is left of its program keeps it, and while a command is in
flight the next item is a `wait` (R244). -/
def Dutiful (s : State) : Prop :=
  dutifulProgram s.env.host = true ∧
    (s.engine.phase = .busy → startsWithWait s.env.host = true)

/-- Whether the host's next move meets the block's one hazard (R244): while a command is in flight it
writes a register, or it uses a read whose value is open. -/
def hazard (s : State) : Bool :=
  match s.engine.phase, s.env.host with
  | .busy, .bus (.write _ _) :: _ => true
  | .busy, .bus (.read a) :: _ => readIsOpen a s
  | .busy, .expect a _ :: _ => readIsOpen a s
  | .busy, .wait :: _ => false
  | .busy, .reset _ :: _ => false
  | .busy, .secondHost _ :: _ => false
  | .busy, [] => false
  | .idle, _ => false

/-- A run has ended when the host has nothing left to do and no command is in flight (R247). -/
def finished (s : State) : Prop := s.env.host = [] ∧ s.engine.phase = .idle

/-- The result of a run: the words its reads returned, and the registers at the end (R247). -/
def runResult (s : State) : List Word × Regs := (s.env.reads, s.regs)

/-- `k` NEXT commands one after another, with nothing between (R165). -/
def repeatNext : Nat → State → Answer
  | 0, s => .next s
  | k + 1, s =>
    match exec .next s with
    | .next t => repeatNext k t
    | .fault f => .fault f
    | .refused r => .refused r

end Sys2Proof.Machine
end

