-- ==== Sys2Proof/Certificates/Slice0/Obligations.lean ====
section
/-! DEFINITION. The statements for the provers, from the numbered rules of the spec. -/

open Sys2Proof Sys2Proof.Machine

/-! ### Reset and boot -/

/-- R231: the state after reset, register by register. -/
def Obligations.ResetState : Prop :=
  statusWord State.reset = 0x00000001 ∧
  ready State.reset = true ∧
  State.reset.regs.initialized = false ∧ State.reset.regs.ksValid = false ∧
  State.reset.regs.exhausted = false ∧ State.reset.regs.overrun = false ∧
  State.reset.regs.err = .ok ∧
  (∀ i (_ : i < 16), State.reset.regs.st[i] = 0) ∧ counter State.reset.regs.st = 0 ∧
  configWord State.reset.regs.config = 0 ∧ configWord State.reset.regs.activeConfig = 0 ∧
  (∀ i (_ : i < 8), State.reset.regs.key[i] = 0) ∧
  (∀ i (_ : i < 2), State.reset.regs.nonce[i] = 0) ∧
  State.reset.regs.ctrInLo = 0 ∧ State.reset.regs.ctrInHi = 0 ∧
  (∀ i (_ : i < 16), State.reset.regs.dataIn[i] = 0) ∧
  (∀ i (_ : i < 16), State.reset.regs.dataOut[i] = 0) ∧
  (∀ i (_ : i < 16), State.reset.regs.ks[i] = 0) ∧
  State.reset.engine.phase = .idle

/-- R43's reset column seen through the bus, with the unmapped addresses and `CMD`, which read 0. -/
def Obligations.ResetReadsThroughTheBus : Prop :=
  ∀ a : Addr, busRead a State.reset = if a = 0x01 then 0x00000001 else 0

/-- R230: a reset that the host performs, whether or not a command is in flight, gives every register
its reset value and abandons the command; the transactions issued during it read 0 and do nothing. -/
def Obligations.ResetAbandonsTheCommand : Prop :=
  ∀ (s : State) (during : List Transaction) (rest : List HostOp),
    s.env.host = .reset during :: rest →
    (s.engine.phase = .idle ∨ 0 < s.env.delay) →
    ∃ t, step s = .next t ∧ t.regs = Regs.reset ∧ t.engine.phase = .idle ∧ t.env.host = rest ∧
      t.env.reads = s.env.reads ++
        List.replicate (during.countP fun x => x matches .read _) 0

/-- R233: only reset clears `INITIALIZED`, in a step that is the host's; and R30: only the completion of
a successful INIT sets it. -/
def Obligations.OnlyResetUninitialises : Prop :=
  ∀ s t : State, step s = .next t →
    (s.regs.initialized = true → t.regs.initialized = false →
      (s.engine.phase = .idle ∨ 0 < s.env.delay) ∧
        ∃ during rest, s.env.host = .reset during :: rest) ∧
    (s.regs.initialized = false → t.regs.initialized = true →
      s.engine.phase = .busy ∧ s.env.delay = 0 ∧ s.engine.cur = 0x00000001 ∧
        roundsLegal s.regs.config.rounds = true)

/-! ### Commands: results, completion and frame -/

/-- R108: NOP clears `OVERRUN`, reports OK, and changes nothing else, in every state; no other command
clears `OVERRUN`; a NOP written while a command is in flight is dropped. -/
def Obligations.NopClearsOverrun : Prop :=
  encode .nop = 0x00000000 ∧
  (∀ s : State, exec .nop s = .next
    { s with regs.overrun := false, regs.err := .ok, engine.phase := .idle }) ∧
  (∀ (i : Instr) (s t : State), i ≠ .nop → exec i s = .next t → t.regs.overrun = s.regs.overrun) ∧
  (∀ s : State, s.engine.phase = .busy →
    busWrite (regAddr .cmd) (encode .nop) s = { s with regs.overrun := true }) ∧
  (∀ s : State, statusWord s = 0x00000713 →
    ∃ t, exec .nop s = .next t ∧ statusWord t = 0x00000003)

/-- R101 to R104, R106, with the words of R22: with a legal round count INIT answers a next state whose
state register holds the constant, the key words, a zero counter and the nonce; it clears `KS`,
`KS_VALID` and `EXHAUSTED`, sets `INITIALIZED` and OK. R105: it latches `ACTIVE_CONFIG`. R100: it leaves
every other register alone, and the host's side. That it leaves the working array and the round
counter alone is the model's choice, log entry 5. -/
def Obligations.InitBuildsState : Prop :=
  encode .init = 0x00000001 ∧
  sigma = #v[0x61707865, 0x3320646e, 0x79622d32, 0x6b206574] ∧
  tau = #v[0x61707865, 0x3120646e, 0x79622d36, 0x6b206574] ∧
  ∀ s : State, roundsLegal s.regs.config.rounds = true →
    ∃ t, exec .init s = .next t ∧
      (∀ i (_ : i < 4), t.regs.st[i] =
        if s.regs.config.keylen = .k256 then sigma[i] else tau[i]) ∧
      (∀ i (_ : i < 4), t.regs.st[4 + i] = s.regs.key[i]) ∧
      (∀ i (_ : i < 4), t.regs.st[8 + i] =
        if s.regs.config.keylen = .k256 then s.regs.key[4 + i] else s.regs.key[i]) ∧
      t.regs.st[12] = 0 ∧ t.regs.st[13] = 0 ∧
      t.regs.st[14] = s.regs.nonce[0] ∧ t.regs.st[15] = s.regs.nonce[1] ∧
      (∀ i (_ : i < 16), t.regs.ks[i] = 0) ∧
      t.regs = { s.regs with
        st := t.regs.st, ks := t.regs.ks, activeConfig := s.regs.config,
        initialized := true, ksValid := false, exhausted := false, err := .ok } ∧
      t.engine = { s.engine with phase := .idle } ∧ t.env = s.env

/-- R107, R109, R204: INIT accepts exactly 8, 12 and 20 rounds; with any other count it writes `ERR`
alone. No other command reports `INVALID_ROUNDS`, and no other command reads `CONFIG`. -/
def Obligations.InitRefusesOtherRoundCounts : Prop :=
  (∀ s : State, s.regs.config.rounds.toNat ∉ [8, 12, 20] →
    exec .init s = .next { s with regs.err := .invalidRounds, engine.phase := .idle }) ∧
  (∀ s : State, s.regs.config.rounds.toNat ∈ [8, 12, 20] →
    ∃ t, exec .init s = .next t ∧ t.regs.err = .ok) ∧
  (∀ (i : Instr) (s t : State), i ≠ .init → exec i s = .next t → t.regs.err ≠ .invalidRounds) ∧
  (∀ (i : Instr) (s t : State) (c : ConfigReg), i ≠ .init → exec i s = .next t →
    exec i { s with regs.config := c } = .next { t with regs.config := c })

/-- R110: INIT may be issued in any state, and what it builds is a function of `CONFIG`, `KEY` and
`NONCE` alone, so that the first blocks after two such INITs are the same. -/
def Obligations.ReinitialisationReproduces : Prop :=
  ∀ s₁ s₂ : State, s₁.regs.config = s₂.regs.config → s₁.regs.key = s₂.regs.key →
    s₁.regs.nonce = s₂.regs.nonce → roundsLegal s₁.regs.config.rounds = true →
    ∃ t₁ t₂ u₁ u₂, exec .init s₁ = .next t₁ ∧ exec .init s₂ = .next t₂ ∧
      t₁.regs.st = t₂.regs.st ∧ counter t₁.regs.st = 0 ∧
      t₁.regs.exhausted = false ∧ t₁.regs.ksValid = false ∧
      exec .next t₁ = .next u₁ ∧ exec .next t₂ = .next u₂ ∧ u₁.regs.ks = u₂.regs.ks

/-- R100, R35: with a 128-bit key `KEY[4..7]` are not read. -/
def Obligations.Init128IgnoresUpperKey : Prop :=
  ∀ s₁ s₂ : State, s₁.regs.config = s₂.regs.config → s₁.regs.nonce = s₂.regs.nonce →
    s₁.regs.config.keylen = .k128 → roundsLegal s₁.regs.config.rounds = true →
    (∀ i (_ : i < 4), s₁.regs.key[i] = s₂.regs.key[i]) →
    ∃ t₁ t₂, exec .init s₁ = .next t₁ ∧ exec .init s₂ = .next t₂ ∧ t₁.regs.st = t₂.regs.st

/-- R160, R163: NEXT on an initialised engine whose counter is not exhausted: the block of the state
before, the counter one further, the flags, and nothing else but the engine's scratch (R44); with the
rule's example. -/
def Obligations.NextGeneratesABlock : Prop :=
  encode .next = 0x00000002 ∧
  (∀ s : State, s.regs.initialized = false →
    exec .next s = .next { s with regs.err := .notInitialized, engine.phase := .idle }) ∧
  (∀ s : State, s.regs.initialized = true → s.regs.exhausted = true →
    exec .next s = .next { s with regs.err := .counterExhausted, engine.phase := .idle }) ∧
  (∀ s : State, s.regs.initialized = true → s.regs.exhausted = false →
    ∃ t, exec .next s = .next t ∧
      (∀ i (_ : i < 16), t.regs.ks[i] =
        (permute s.regs.st s.regs.activeConfig.rounds.toNat)[i] + s.regs.st[i]) ∧
      counter t.regs.st = counter s.regs.st + 1 ∧
      (∀ i (_ : i < 16), i ≠ 12 → i ≠ 13 → t.regs.st[i] = s.regs.st[i]) ∧
      (t.regs.exhausted = true ↔ (counter s.regs.st).toNat = 2 ^ 64 - 1) ∧
      t.regs = { s.regs with
        st := t.regs.st, ks := t.regs.ks, ksValid := true, exhausted := t.regs.exhausted,
        err := .ok } ∧
      t.engine.phase = .idle ∧ t.engine.cur = s.engine.cur ∧ t.env = s.env) ∧
  (∀ s : State, s.regs.config = ⟨.k256, 20⟩ → s.regs.key = Vector.replicate 8 0 →
    s.regs.nonce = Vector.replicate 2 0 →
    ∃ u t, exec .init s = .next u ∧ exec .next u = .next t ∧
      t.regs.ks[0] = 0xade0b876 ∧ t.regs.ks[1] = 0x903df1a0 ∧ t.regs.ks[2] = 0xe56a5d40 ∧
      t.regs.ks[3] = 0x28bd8653 ∧ t.regs.st[12] = 1 ∧
      (ser t.regs.ks).take 8 = [0x76, 0xb8, 0xe0, 0xad, 0xa0, 0xf1, 0x3d, 0x90])

/-- R148: the block NEXT gives is a function of the state register and the round count alone. -/
def Obligations.BlockDependsOnStateAlone : Prop :=
  ∀ s₁ s₂ : State, s₁.regs.st = s₂.regs.st →
    s₁.regs.activeConfig.rounds = s₂.regs.activeConfig.rounds →
    s₁.regs.initialized = true → s₁.regs.exhausted = false →
    s₂.regs.initialized = true → s₂.regs.exhausted = false →
    ∃ t₁ t₂, exec .next s₁ = .next t₁ ∧ exec .next s₂ = .next t₂ ∧
      t₁.regs.ks = feedForward (permute s₁.regs.st s₁.regs.activeConfig.rounds.toNat) s₁.regs.st ∧
      t₁.regs.ks = t₂.regs.ks ∧ ser t₁.regs.ks = ser t₂.regs.ks

/-- R161: the increment is of the 64-bit number `{hi, lo}`, and `wrapped` says that it was 2^64-1. -/
def Obligations.CounterIncrementCarries : Prop :=
  ∀ lo hi : Word,
    (ctrInc lo hi).lo = lo + 1 ∧
    (ctrInc lo hi).hi = (if lo = 0xFFFFFFFF then hi + 1 else hi) ∧
    ((ctrInc lo hi).hi ++ (ctrInc lo hi).lo : BitVec 64) = (hi ++ lo : BitVec 64) + 1 ∧
    ((ctrInc lo hi).wrapped = true ↔ (hi ++ lo : BitVec 64).toNat = 2 ^ 64 - 1)

/-- R162: the exhaustion policy. The block of counter 2^64-1 is generated, the counter wraps to 0 and
`EXHAUSTED` is set; while it is set NEXT and CRYPT write `ERR` alone; a successful INIT or WRCTR, and
reset, clear it. -/
def Obligations.ExhaustionPolicy : Prop :=
  (∀ s : State, s.regs.initialized = true → s.regs.exhausted = false →
    (counter s.regs.st).toNat = 2 ^ 64 - 1 →
    ∃ t u, exec .next s = .next t ∧ exec .crypt s = .next u ∧
      t.regs.ks = blockOf s.regs.st s.regs.activeConfig.rounds.toNat ∧
      u.regs.ks = blockOf s.regs.st s.regs.activeConfig.rounds.toNat ∧
      counter t.regs.st = 0 ∧ counter u.regs.st = 0 ∧
      t.regs.exhausted = true ∧ u.regs.exhausted = true) ∧
  (∀ s : State, s.regs.initialized = true → s.regs.exhausted = true →
    exec .next s = .next { s with regs.err := .counterExhausted, engine.phase := .idle } ∧
    exec .crypt s = .next { s with regs.err := .counterExhausted, engine.phase := .idle }) ∧
  (∀ s : State, roundsLegal s.regs.config.rounds = true →
    ∃ t, exec .init s = .next t ∧ t.regs.exhausted = false) ∧
  (∀ s : State, s.regs.initialized = true →
    ∃ t, exec .wrctr s = .next t ∧ t.regs.exhausted = false) ∧
  (∀ s : State, (resetBlock s).regs.exhausted = false)

/-- R165: after an INIT, the k-th of a run of NEXTs gives the block of the INIT state with counter k. -/
def Obligations.BlockSequence : Prop :=
  ∀ (s : State) (k : Nat), roundsLegal s.regs.config.rounds = true → k ≤ 2 ^ 64 - 1 →
    ∃ u v t, exec .init s = .next u ∧ repeatNext k u = .next v ∧ exec .next v = .next t ∧
      t.regs.ks = blockOf
        ((u.regs.st.set 12 (BitVec.ofNat 32 k)).set 13 (BitVec.ofNat 32 (k / 2 ^ 32)))
        s.regs.config.rounds.toNat

/-- R164: WRCTR loads any 64-bit counter, clears `EXHAUSTED`, and writes no other register (for the
working array and the round counter: log entry 5); with the rule's example. -/
def Obligations.WrctrLoadsTheCounter : Prop :=
  encode .wrctr = 0x00000005 ∧
  (∀ s : State, s.regs.initialized = false →
    exec .wrctr s = .next { s with regs.err := .notInitialized, engine.phase := .idle }) ∧
  (∀ s : State, s.regs.initialized = true →
    ∃ t, exec .wrctr s = .next t ∧
      t.regs.st[12] = s.regs.ctrInLo ∧ t.regs.st[13] = s.regs.ctrInHi ∧
      (∀ i (_ : i < 16), i ≠ 12 → i ≠ 13 → t.regs.st[i] = s.regs.st[i]) ∧
      t.regs = { s.regs with st := t.regs.st, exhausted := false, err := .ok } ∧
      t.engine = { s.engine with phase := .idle } ∧ t.env = s.env) ∧
  (∀ s : State, s.regs.initialized = true → s.regs.ctrInLo = 0xFFFFFFFF → s.regs.ctrInHi = 0 →
    ∃ t u, exec .wrctr s = .next t ∧ exec .next t = .next u ∧
      u.regs.st[12] = 0x00000000 ∧ u.regs.st[13] = 0x00000001)

/-- R180: XOR writes sixteen words of `DATA_OUT`, keeps `KS`, `KS_VALID` and the counter, and is legal
while `EXHAUSTED` is 1. For the working array and the round counter this is log entry 5. -/
def Obligations.XorAppliesTheKeystream : Prop :=
  encode .xor = 0x00000003 ∧
  (∀ s : State, s.regs.initialized = false →
    exec .xor s = .next { s with regs.err := .notInitialized, engine.phase := .idle }) ∧
  (∀ s : State, s.regs.initialized = true → s.regs.ksValid = false →
    exec .xor s = .next { s with regs.err := .noKeystream, engine.phase := .idle }) ∧
  (∀ s : State, s.regs.initialized = true → s.regs.ksValid = true →
    ∃ t, exec .xor s = .next t ∧
      (∀ i (_ : i < 16), t.regs.dataOut[i] = s.regs.dataIn[i] ^^^ s.regs.ks[i]) ∧
      t.regs = { s.regs with dataOut := t.regs.dataOut, err := .ok } ∧
      t.engine = { s.engine with phase := .idle } ∧ t.env = s.env ∧
      ((∀ i (_ : i < 16), s.regs.dataIn[i] = 0) → t.regs.dataOut = s.regs.ks) ∧
      (s.regs.dataIn[0] = 0x03020100 → s.regs.ks[0] = 0xade0b876 →
        t.regs.dataOut[0] = 0xaee2b976))

/-- R181: each byte of `Ser(DATA_OUT)` is the XOR of the same bytes of `Ser(DATA_IN)` and `Ser(KS)`. -/
def Obligations.XorIsBytewise : Prop :=
  ∀ s : State, s.regs.initialized = true → s.regs.ksValid = true →
    ∃ t, exec .xor s = .next t ∧
      ∀ k, k < 64 → (ser t.regs.dataOut).getD k 0 =
        (ser s.regs.dataIn).getD k 0 ^^^ (ser s.regs.ks).getD k 0

/-- R182: XOR, the result copied back to `DATA_IN`, and XOR again give the original data. -/
def Obligations.XorInvolution : Prop :=
  ∀ s : State, s.regs.initialized = true → s.regs.ksValid = true →
    ∃ t u, exec .xor s = .next t ∧
      exec .xor { t with regs.dataIn := t.regs.dataOut } = .next u ∧
      u.regs.dataOut = s.regs.dataIn

/-- R184: the first n bytes of the result depend on the first n bytes of the data alone, so that a host
may pad a short block as it likes. -/
def Obligations.PartialBlockPrefix : Prop :=
  ∀ (s : State) (d : Block) (n : Nat), s.regs.initialized = true → s.regs.ksValid = true →
    (ser d).take n = (ser s.regs.dataIn).take n →
    ∃ t u, exec .xor s = .next t ∧ exec .xor { s with regs.dataIn := d } = .next u ∧
      (ser u.regs.dataOut).take n = (ser t.regs.dataOut).take n

/-- R183: CRYPT's results and frame; it leaves the state that NEXT and then XOR leave, and fails where
NEXT fails, as NEXT does; with the rule's example. -/
def Obligations.CryptGeneratesAndApplies : Prop :=
  encode .crypt = 0x00000004 ∧
  (∀ s : State, s.regs.initialized = false →
    exec .crypt s = .next { s with regs.err := .notInitialized, engine.phase := .idle }) ∧
  (∀ s : State, s.regs.initialized = true → s.regs.exhausted = true →
    exec .crypt s = .next { s with regs.err := .counterExhausted, engine.phase := .idle }) ∧
  (∀ s : State, s.regs.initialized = true → s.regs.exhausted = false →
    ∃ m t, exec .crypt s = .next t ∧ exec .next s = .next m ∧ exec .xor m = .next t ∧
      (∀ i (_ : i < 16), t.regs.ks[i] =
        (permute s.regs.st s.regs.activeConfig.rounds.toNat)[i] + s.regs.st[i]) ∧
      (∀ i (_ : i < 16), t.regs.dataOut[i] = s.regs.dataIn[i] ^^^ t.regs.ks[i]) ∧
      counter t.regs.st = counter s.regs.st + 1 ∧
      (∀ i (_ : i < 16), i ≠ 12 → i ≠ 13 → t.regs.st[i] = s.regs.st[i]) ∧
      (t.regs.exhausted = true ↔ (counter s.regs.st).toNat = 2 ^ 64 - 1) ∧
      t.regs = { s.regs with
        st := t.regs.st, ks := t.regs.ks, dataOut := t.regs.dataOut, ksValid := true,
        exhausted := t.regs.exhausted, err := .ok } ∧
      t.engine.phase = .idle ∧ t.engine.cur = s.engine.cur ∧ t.env = s.env) ∧
  (∀ s m : State, exec .next s = .next m → m.regs.err ≠ .ok → exec .crypt s = .next m) ∧
  (∀ s : State, s.regs.config = ⟨.k256, 20⟩ → s.regs.key = Vector.replicate 8 0 →
    s.regs.nonce = Vector.replicate 2 0 →
    s.regs.dataIn[0] = 0x03020100 → s.regs.dataIn[1] = 0x07060504 →
    s.regs.dataIn[2] = 0x0b0a0908 → s.regs.dataIn[3] = 0x0f0e0d0c →
    ∃ u t, exec .init s = .next u ∧ exec .crypt u = .next t ∧
      t.regs.dataOut[0] = 0xaee2b976 ∧ t.regs.dataOut[1] = 0x973bf4a4 ∧
      t.regs.dataOut[2] = 0xee605448 ∧ t.regs.dataOut[3] = 0x27b38b5f ∧ t.regs.st[12] = 1)

/-- R124: QRTEST answers a next state in every state; it writes `DATA_OUT[0..3]` and `ERR` alone. For the
working array and the round counter this is log entry 5. -/
def Obligations.QrtestAppliesOneQuarterRound : Prop :=
  encode .qrtest = 0x00000006 ∧
  (∀ s : State, ∃ t, exec .qrtest s = .next t ∧
    qr ⟨s.regs.dataIn[0], s.regs.dataIn[1], s.regs.dataIn[2], s.regs.dataIn[3]⟩ =
      ⟨t.regs.dataOut[0], t.regs.dataOut[1], t.regs.dataOut[2], t.regs.dataOut[3]⟩ ∧
    (∀ i (_ : i < 16), 4 ≤ i → t.regs.dataOut[i] = s.regs.dataOut[i]) ∧
    t.regs = { s.regs with dataOut := t.regs.dataOut, err := .ok } ∧
    t.engine = { s.engine with phase := .idle } ∧ t.env = s.env) ∧
  qr ⟨0, 0, 0, 0⟩ = ⟨0, 0, 0, 0⟩ ∧
  qr ⟨0x11111111, 0x01020304, 0x9b8d6f43, 0x01234567⟩ =
    ⟨0xea2a92f4, 0xcb1cf8ce, 0x4581472e, 0x5881c4bb⟩

/-! ### The word operators, the quarter-round and the permutation -/

/-- R11: modular addition, exclusive or and rotation, by number and by bit. -/
def Obligations.WordOperators : Prop :=
  ∀ x y : Word,
    (x + y).toNat = (x.toNat + y.toNat) % 2 ^ 32 ∧
    (∀ i, i < 32 → (x ^^^ y).getLsbD i = (x.getLsbD i != y.getLsbD i)) ∧
    (∀ n, 0 < n → n < 32 →
      rotl32 x n = x.rotateLeft n ∧
      (rotl32 x n).toNat = x.toNat * 2 ^ n % 2 ^ 32 + x.toNat / 2 ^ (32 - n) ∧
      ∀ i, i < 32 → (rotl32 x n).getLsbD i = x.getLsbD ((i + (32 - n)) % 32))

/-- R120: the quarter-round is the twelve operations in their order, with the amounts 16, 12, 8, 7. -/
def Obligations.QuarterRoundSequence : Prop :=
  ∀ a b c d a₁ d₁ c₁ b₁ a₂ d₂ c₂ b₂ : Word,
    a₁ = a + b → d₁ = (d ^^^ a₁).rotateLeft 16 →
    c₁ = c + d₁ → b₁ = (b ^^^ c₁).rotateLeft 12 →
    a₂ = a₁ + b₁ → d₂ = (d₁ ^^^ a₂).rotateLeft 8 →
    c₂ = c₁ + d₂ → b₂ = (b₁ ^^^ c₂).rotateLeft 7 →
    qr ⟨a, b, c, d⟩ = ⟨a₂, b₂, c₂, d₂⟩

/-- R122: with four distinct indices `QRW` writes the quarter-round of the four words back and leaves
the other twelve alone. -/
def Obligations.QrwWritesFourWords : Prop :=
  ∀ (w : Block) (l : Lane),
    l.ia ≠ l.ib → l.ia ≠ l.ic → l.ia ≠ l.id → l.ib ≠ l.ic → l.ib ≠ l.id → l.ic ≠ l.id →
    (⟨(qrw w l)[l.ia], (qrw w l)[l.ib], (qrw w l)[l.ic], (qrw w l)[l.id]⟩ : Quad) =
      qr ⟨w[l.ia], w[l.ib], w[l.ic], w[l.id]⟩ ∧
    ∀ i : Fin 16, i ≠ l.ia → i ≠ l.ib → i ≠ l.ic → i ≠ l.id → (qrw w l)[i] = w[i]

/-- R140, R141: what each pass does to each word of the 4x4 array: lane k of the column pass holds
words k, 4+k, 8+k, 12+k, and lane k of the diagonal pass word k of row 0 and words k+1, k+2 and k+3,
modulo 4, of rows 1, 2 and 3. -/
def Obligations.PassesByColumnAndDiagonal : Prop :=
  ∀ (w : Block) (k : Nat) (_ : k < 4),
    (⟨(columnPass w)[k], (columnPass w)[4 + k], (columnPass w)[8 + k],
        (columnPass w)[12 + k]⟩ : Quad) =
      qr ⟨w[k], w[4 + k], w[8 + k], w[12 + k]⟩ ∧
    (⟨(diagonalPass w)[k], (diagonalPass w)[4 + (k + 1) % 4], (diagonalPass w)[8 + (k + 2) % 4],
        (diagonalPass w)[12 + (k + 3) % 4]⟩ : Quad) =
      qr ⟨w[k], w[4 + (k + 1) % 4], w[8 + (k + 2) % 4], w[12 + (k + 3) % 4]⟩

/-- R143: the four index tuples of a pass cover all sixteen indices once; applying its four lanes in
parallel, each to the words that stood before the pass, or one after another in any order, gives the
same array. -/
def Obligations.LaneOrderIsIrrelevant : Prop :=
  (columnLanes.flatMap fun l => [l.ia, l.ib, l.ic, l.id]).Perm (List.finRange 16) ∧
  (diagonalLanes.flatMap fun l => [l.ia, l.ib, l.ic, l.id]).Perm (List.finRange 16) ∧
  (∀ (w : Block) (l : Lane),
    (l ∈ columnLanes → laneIn (columnPass w) l = qr (laneIn w l)) ∧
    (l ∈ diagonalLanes → laneIn (diagonalPass w) l = qr (laneIn w l))) ∧
  ∀ (lanes : List Lane) (w : Block),
    (lanes.Perm columnLanes → runLanes lanes w = columnPass w) ∧
    (lanes.Perm diagonalLanes → runLanes lanes w = diagonalPass w)

/-- R142, R144, R145: single rounds alternate, column first; R of them are R/2 double rounds for every
even R, and so for 8, 12 and 20. For every other count it rests on the model's choice that `permute` is
total, log entry 8. -/
def Obligations.PermutationIsDoubleRounds : Prop :=
  ∀ s : Block,
    (∀ r, permute s (2 * r + 1) = columnPass (permute s (2 * r))) ∧
    (∀ r, permute s (2 * r + 2) = diagonalPass (permute s (2 * r + 1))) ∧
    (∀ n, permute s (2 * n) = (fun w => diagonalPass (columnPass w))^[n] s) ∧
    permute s 8 = doubleRound^[4] s ∧ permute s 12 = doubleRound^[6] s ∧
    permute s 20 = doubleRound^[10] s

/-- R14, R147: byte `4i + j` of the 64-byte view is `X[i][8j+7:8j]`; bytes to word and word to bytes
undo each other. -/
def Obligations.SerialiserIsLittleEndian : Prop :=
  (∀ x : Block, (ser x).length = 64 ∧
    ∀ i j, (hi : i < 16) → j < 4 → (ser x)[4 * i + j]? = some (x[i].extractLsb' (8 * j) 8)) ∧
  (∀ w : Word, wordOfBytes (byteOf w 0) (byteOf w 1) (byteOf w 2) (byteOf w 3) = w) ∧
  (∀ b0 b1 b2 b3 : Byte, leBytes (wordOfBytes b0 b1 b2 b3) = [b0, b1, b2, b3])

/-! ### Errors -/

/-- R200: a command or illegal word that does not report OK writes `ERR` and nothing else, and
completes. -/
def Obligations.FailureWritesErrAlone : Prop :=
  (∀ (i : Instr) (s t : State), exec i s = .next t → t.regs.err ≠ .ok →
    t = { s with regs.err := t.regs.err, engine.phase := .idle }) ∧
  (∀ s t : State, s.engine.phase = .busy → s.env.delay = 0 → step s = .next t →
    t.regs.err ≠ .ok → t = { s with regs.err := t.regs.err, engine.phase := .idle })

/-- R202: the code each command, and each word that is none, reports in an arbitrary state: the first
check that applies. -/
def Obligations.CheckOrder : Prop :=
  ∀ s : State,
    (∀ c : Word, (∀ i, decode c ≠ .instr i) →
      ∃ t, engineStep { s with engine.cur := c } = .next t ∧ t.regs.err = .illegalCommand) ∧
    (∃ t, exec .nop s = .next t ∧ t.regs.err = .ok) ∧
    (∃ t, exec .init s = .next t ∧
      t.regs.err = if roundsLegal s.regs.config.rounds then .ok else .invalidRounds) ∧
    (∃ t, exec .next s = .next t ∧
      t.regs.err = if s.regs.initialized = false then .notInitialized
        else if s.regs.exhausted then .counterExhausted else .ok) ∧
    (∃ t, exec .xor s = .next t ∧
      t.regs.err = if s.regs.initialized = false then .notInitialized
        else if s.regs.ksValid = false then .noKeystream else .ok) ∧
    (∃ t, exec .crypt s = .next t ∧
      t.regs.err = if s.regs.initialized = false then .notInitialized
        else if s.regs.exhausted then .counterExhausted else .ok) ∧
    (∃ t, exec .wrctr s = .next t ∧
      t.regs.err = if s.regs.initialized = false then .notInitialized else .ok) ∧
    (∃ t, exec .qrtest s = .next t ∧ t.regs.err = .ok)

/-- R208: a word whose `OPCODE` is 0x07 to 0xFF, or that has a bit of 31:8 set, completes with
`ILLEGAL_COMMAND` and changes nothing else; no other word reports that code. -/
def Obligations.IllegalWordsReportIllegalCommand : Prop :=
  ∀ s : State, s.engine.phase = .busy → s.env.delay = 0 →
    ((7 ≤ (s.engine.cur.extractLsb' 0 8).toNat ∨ s.engine.cur.extractLsb' 8 24 ≠ 0) →
      step s = .next { s with regs.err := .illegalCommand, engine.phase := .idle }) ∧
    ((s.engine.cur.extractLsb' 0 8).toNat < 7 → s.engine.cur.extractLsb' 8 24 = 0 →
      ∃ t, step s = .next t ∧ t.regs.err ≠ .illegalCommand)

/-! ### Encoding -/

/-- R81, R82, R83, R87: the decoder reads a command from its one word and from no other. -/
def Obligations.DecodeReadsExactlyTheMap : Prop :=
  (∀ (c : Word) (i : Instr), decode c = .instr i ↔ c = encode i) ∧
  (∀ c : Word, (∃ i, decode c = .instr i) ↔ c.toNat < 7) ∧
  encode .nop = 0x00000000 ∧ encode .init = 0x00000001 ∧ encode .next = 0x00000002 ∧
  encode .xor = 0x00000003 ∧ encode .crypt = 0x00000004 ∧ encode .wrctr = 0x00000005 ∧
  encode .qrtest = 0x00000006

/-- R89: the 41-bit record of a transaction has `WE` in bit 40, `ADDR` in 39:32 and `WDATA`, 0 for a
read, in 31:0; decoding undoes encoding for every transaction, and a record stands for at most one. -/
def Obligations.TransactionRecordsRoundTrip : Prop :=
  (∀ t : Transaction, decodeTransaction (encodeTransaction t) = some t) ∧
  (∀ (r : BitVec 41) (t : Transaction), decodeTransaction r = some t → encodeTransaction t = r) ∧
  (∀ r : BitVec 41, wfRecord r = true ↔ ∃ t, decodeTransaction r = some t) ∧
  (∀ (a : Addr) (v : Word),
    (encodeTransaction (.write a v)).toNat = 2 ^ 40 + a.toNat * 2 ^ 32 + v.toNat ∧
    (encodeTransaction (.read a)).toNat = a.toNat * 2 ^ 32)

/-- Words written out from R82 and records written out from the programs of 95_test_vectors. -/
def Obligations.SampleWordsDecode : Prop :=
  decode 0x00000001 = .instr .init ∧ decode 0x00000003 = .instr .xor ∧
  decode 0x00000005 = .instr .wrctr ∧ decode 0x00000007 = .reservedOpcode ∧
  decode 0x00000107 = .reservedBits ∧
  decodeTransaction 0x10200001401 = some (.write 0x02 0x00001401) ∧
  decodeTransaction 0x00100000000 = some (.read 0x01)

/-- R88, R91: the word that `cfg` writes stores the key length and the round count it names, and reads
back as written. -/
def Obligations.CfgWordStoresBothFields : Prop :=
  ∀ n, n < 256 →
    configOfWord (cfgWord 128 n) = ⟨.k128, BitVec.ofNat 8 n⟩ ∧
    configOfWord (cfgWord 256 n) = ⟨.k256, BitVec.ofNat 8 n⟩ ∧
    configWord (configOfWord (cfgWord 128 n)) = cfgWord 128 n ∧
    configWord (configOfWord (cfgWord 256 n)) = cfgWord 256 n

/-- R91: what the pseudo-instructions expand to, at the addresses of R43. -/
def Obligations.PseudoInstructionsExpand : Prop :=
  (∀ i : Instr, expand (.command i) = [.bus (.write 0x00 (encode i))] ∧
    expand (.run i) = expand (.command i) ++ expand .wait) ∧
  expand .wait = [.wait] ∧
  (∀ n : Nat,
    expand (.cfg 128 n) = [.bus (.write 0x02 (BitVec.ofNat 32 n <<< 8 ||| 0))] ∧
    expand (.cfg 256 n) = [.bus (.write 0x02 (BitVec.ofNat 32 n <<< 8 ||| 1))]) ∧
  (∀ words : List Word, words.length = 8 ∨ words.length = 4 →
    (expand (.key words)).length = words.length ∧
    ∀ i (h : i < words.length), (expand (.key words))[i]? =
      some (.bus (.write (BitVec.ofNat 8 (8 + i)) words[i]))) ∧
  (∀ n0 n1 : Word, expand (.nonce n0 n1) = [.bus (.write 0x10 n0), .bus (.write 0x11 n1)]) ∧
  (∀ lo hi : Word, expand (.ctr lo hi) = [.bus (.write 0x04 lo), .bus (.write 0x05 hi)])

/-! ### Registers and the bus -/

/-- R43: the address of every register, each register answers at its own address, no address names two
registers, and the unmapped addresses are the ones listed. -/
def Obligations.RegisterMap : Prop :=
  regAddr .cmd = 0x00 ∧ regAddr .status = 0x01 ∧ regAddr .config = 0x02 ∧
  regAddr .activeConfig = 0x03 ∧ regAddr .ctrInLo = 0x04 ∧ regAddr .ctrInHi = 0x05 ∧
  (∀ i, (regAddr (.key i)).toNat = 0x08 + i.val) ∧
  (∀ i, (regAddr (.nonce i)).toNat = 0x10 + i.val) ∧
  (∀ i, (regAddr (.dataIn i)).toNat = 0x20 + i.val) ∧
  (∀ i, (regAddr (.dataOut i)).toNat = 0x30 + i.val) ∧
  (∀ i, (regAddr (.state i)).toNat = 0x40 + i.val) ∧
  (∀ i, (regAddr (.ks i)).toNat = 0x50 + i.val) ∧
  (∀ r : Reg, regAt (regAddr r) = some r) ∧
  (∀ (a : Addr) (r : Reg), regAt a = some r → regAddr r = a) ∧
  (∀ a : Addr, regAt a = none ↔
    (0x06 ≤ a.toNat ∧ a.toNat ≤ 0x07) ∨ (0x12 ≤ a.toNat ∧ a.toNat ≤ 0x1F) ∨ 0x60 ≤ a.toNat)

/-- R28: `STATUS` bit by bit, with the codes of R201. -/
def Obligations.StatusLayout : Prop :=
  ∀ s : State,
    ((statusWord s).getLsbD 0 = true ↔ s.engine.phase = .idle) ∧
    (statusWord s).getLsbD 1 = s.regs.initialized ∧
    (statusWord s).getLsbD 2 = s.regs.ksValid ∧
    (statusWord s).getLsbD 3 = s.regs.exhausted ∧
    (statusWord s).getLsbD 4 = s.regs.overrun ∧
    (statusWord s).extractLsb' 5 3 = 0 ∧
    (statusWord s).extractLsb' 8 4 =
      (match s.regs.err with
        | .ok => 0x0#4
        | .wrongKeyLength => 0x1#4
        | .wrongNonceLength => 0x2#4
        | .invalidRounds => 0x3#4
        | .notInitialized => 0x4#4
        | .noKeystream => 0x5#4
        | .counterExhausted => 0x6#4
        | .illegalCommand => 0x7#4) ∧
    (statusWord s).extractLsb' 12 20 = 0

/-- R26: a write of `CONFIG` stores bit 0 and bits 15:8, and a read returns them with the rest zero. -/
def Obligations.ConfigKeepsItsFields : Prop :=
  ∀ (s : State) (v : Word), s.engine.phase = .idle →
    busRead (regAddr .config) (busWrite (regAddr .config) v s) = v &&& 0x0000FF01 ∧
    busWrite (regAddr .config) v s = { s with
      regs.config := (busWrite (regAddr .config) v s).regs.config }

/-- R65: a write to a read/write register stores the word (its fields, for `CONFIG`), a read of the
address returns it, and every other address reads as before; every register reads its own contents
(R26 to R42); a write to a read-only register or an
unmapped address does nothing at all; `CMD` and unmapped addresses read 0; a write to `CMD` hands the
word to the engine, and a write to any address while `READY` is 0 is dropped. -/
def Obligations.ReadsAndWritesByAddressKind : Prop :=
  (∀ (s : State) (r : Reg) (v : Word), s.engine.phase = .idle → regAccess r = .readWrite →
    busRead (regAddr r) (busWrite (regAddr r) v s) =
      (if r = .config then v &&& 0x0000FF01 else v) ∧
    (∀ a, a ≠ regAddr r → busRead a (busWrite (regAddr r) v s) = busRead a s) ∧
    (busWrite (regAddr r) v s).engine = s.engine ∧ (busWrite (regAddr r) v s).env = s.env) ∧
  (∀ (s : State) (r : Reg), s.engine.phase = .idle →
    busRead (regAddr r) s = (match r with
      | .cmd => 0
      | .status => statusWord s
      | .config => configWord s.regs.config
      | .activeConfig => configWord s.regs.activeConfig
      | .ctrInLo => s.regs.ctrInLo
      | .ctrInHi => s.regs.ctrInHi
      | .key i => s.regs.key[i]
      | .nonce i => s.regs.nonce[i]
      | .dataIn i => s.regs.dataIn[i]
      | .dataOut i => s.regs.dataOut[i]
      | .state i => s.regs.st[i]
      | .ks i => s.regs.ks[i])) ∧
  (∀ (s : State) (r : Reg) (v : Word), s.engine.phase = .idle → regAccess r = .readOnly →
    busWrite (regAddr r) v s = s) ∧
  (∀ (s : State) (a : Addr) (v : Word), s.engine.phase = .idle → regAt a = none →
    busWrite a v s = s) ∧
  (∀ (s : State) (a : Addr), regAt a = none ∨ a = regAddr .cmd → busRead a s = 0) ∧
  (∀ (s : State) (c : Word), s.engine.phase = .idle →
    busWrite (regAddr .cmd) c s = accept c s) ∧
  (∀ (s : State) (a : Addr) (v : Word), s.engine.phase = .busy →
    busWrite a v s = { s with regs.overrun := true })

/-- R66: a read changes nothing in the block, and writing a register other than `CMD` twice is writing
it once. -/
def Obligations.ReadsHaveNoSideEffects : Prop :=
  (∀ (s : State) (a : Addr),
    (transact (.read a) s).regs = s.regs ∧ (transact (.read a) s).engine = s.engine ∧
    (transact (.read a) s).env.reads = s.env.reads ++ [busRead a s] ∧
    (s.engine.phase = .idle → ∀ b, busRead b (transact (.read a) s) = busRead b s)) ∧
  (∀ (s : State) (a : Addr) (v : Word), a ≠ regAddr .cmd →
    busWrite a v (busWrite a v s) = busWrite a v s)

/-- R240: a write of any word to `CMD` while `READY` is 1 is accepted: `CUR` takes the word, `READY`
reads 0, and no register changes. -/
def Obligations.AcceptanceTakesEveryWord : Prop :=
  ∀ (s : State) (c : Word), s.engine.phase = .idle →
    (busWrite (regAddr .cmd) c s).engine = { s.engine with phase := .busy, cur := c } ∧
    (busWrite (regAddr .cmd) c s).regs = s.regs ∧
    (busRead (regAddr .status) (busWrite (regAddr .cmd) c s)).getLsbD 0 = false

/-- R241: a write to any address while a command is in flight sets `OVERRUN` and changes nothing else,
`ERR` and the command in flight included. -/
def Obligations.WritesWhileBusyAreDropped : Prop :=
  ∀ (s : State) (a : Addr) (v : Word), s.engine.phase = .busy →
    busWrite a v s = { s with regs.overrun := true }

/-- R242: while a command is in flight `STATUS` reads its current value with `READY` 0, and every
register that is no result register reads as usual; a program that depends on a result register
then stops (log entry 9). -/
def Obligations.ReadsWhileBusy : Prop :=
  ∀ (s : State) (r : Reg) (v : Word), s.engine.phase = .busy →
    (match r with
      | .state _ => readIsOpen (regAddr r) s = true ∧
          expectRead (regAddr r) v s = .fault .dependsOnBusyRead
      | .ks _ => readIsOpen (regAddr r) s = true ∧
          expectRead (regAddr r) v s = .fault .dependsOnBusyRead
      | .dataOut _ => readIsOpen (regAddr r) s = true ∧
          expectRead (regAddr r) v s = .fault .dependsOnBusyRead
      | .status => busRead (regAddr r) s = statusWord s ∧ (statusWord s).getLsbD 0 = false
      | .cmd => busRead (regAddr r) s = 0
      | .config => busRead (regAddr r) s = configWord s.regs.config
      | .activeConfig => busRead (regAddr r) s = configWord s.regs.activeConfig
      | .ctrInLo => busRead (regAddr r) s = s.regs.ctrInLo
      | .ctrInHi => busRead (regAddr r) s = s.regs.ctrInHi
      | .key i => busRead (regAddr r) s = s.regs.key[i]
      | .nonce i => busRead (regAddr r) s = s.regs.nonce[i]
      | .dataIn i => busRead (regAddr r) s = s.regs.dataIn[i])

/-! ### The step, whole-machine rules and invariants -/

/-- R243: when the latency of the command in flight has passed, the step is the accepted command. -/
def Obligations.StepPerformsTheAcceptedCommand : Prop :=
  ∀ (s : State) (i : Instr), s.engine.phase = .busy → s.env.delay = 0 →
    decode s.engine.cur = .instr i → step s = exec i s

/-- R9, R243: whatever word was accepted, its completion step answers a next state in which the engine
is idle, in every state. -/
def Obligations.EveryAcceptedWordCompletes : Prop :=
  ∀ s : State, s.engine.phase = .busy → s.env.delay = 0 →
    ∃ t, step s = .next t ∧ t.engine.phase = .idle ∧ t.env = s.env ∧ ready t = true

/-- R21: the only writers of the state register: INIT and reset of every word, NEXT, CRYPT and WRCTR of
words 12 and 13. -/
def Obligations.StateRegisterWriters : Prop :=
  ∀ (s t : State) (i : Nat) (_ : i < 16), step s = .next t → t.regs.st[i] ≠ s.regs.st[i] →
    ((s.engine.phase = .idle ∨ 0 < s.env.delay) ∧
      ∃ during rest, s.env.host = .reset during :: rest) ∨
    (s.engine.phase = .busy ∧ s.env.delay = 0 ∧ decode s.engine.cur = .instr .init) ∨
    ((i = 12 ∨ i = 13) ∧ s.engine.phase = .busy ∧ s.env.delay = 0 ∧
      (decode s.engine.cur = .instr .next ∨ decode s.engine.cur = .instr .crypt ∨
        decode s.engine.cur = .instr .wrctr))

/-- R33: a dropped write sets `OVERRUN`, and nothing else does; a completed NOP and reset clear it, and
nothing else does. -/
def Obligations.OverrunIsSticky : Prop :=
  (∀ s t : State, step s = .next t →
    (s.regs.overrun = false → t.regs.overrun = true →
      s.engine.phase = .busy ∧ 0 < s.env.delay ∧
        ∃ a v rest, s.env.host = .bus (.write a v) :: rest) ∧
    (s.regs.overrun = true → t.regs.overrun = false →
      ((s.engine.phase = .idle ∨ 0 < s.env.delay) ∧
        ∃ during rest, s.env.host = .reset during :: rest) ∨
      (s.engine.phase = .busy ∧ s.env.delay = 0 ∧ decode s.engine.cur = .instr .nop))) ∧
  (∀ (s : State) (a : Addr) (v : Word) (rest : List HostOp), s.engine.phase = .busy →
    0 < s.env.delay → s.env.host = .bus (.write a v) :: rest →
    ∃ t, step s = .next t ∧ t.regs.overrun = true) ∧
  (∀ s : State, s.engine.phase = .busy → s.env.delay = 0 → decode s.engine.cur = .instr .nop →
    ∃ t, step s = .next t ∧ t.regs.overrun = false) ∧
  (∀ s : State, (resetBlock s).regs.overrun = false)

/-- R86, R235: no command writes a staging register: `CONFIG`, `KEY`, `NONCE`, `CTR_IN`, `DATA_IN`. -/
def Obligations.CommandsKeepTheStagingRegisters : Prop :=
  ∀ (i : Instr) (s t : State), exec i s = .next t →
    t.regs.config = s.regs.config ∧ t.regs.key = s.regs.key ∧ t.regs.nonce = s.regs.nonce ∧
    t.regs.ctrInLo = s.regs.ctrInLo ∧ t.regs.ctrInHi = s.regs.ctrInHi ∧
    t.regs.dataIn = s.regs.dataIn

/-- R70, R241: while a command is in flight, no step but its completion and a reset changes a register
other than `OVERRUN`, or the accepted word. -/
def Obligations.EffectsAppearAtCompletion : Prop :=
  ∀ s t : State, s.engine.phase = .busy → 0 < s.env.delay → step s = .next t →
    (∀ during rest, s.env.host ≠ .reset during :: rest) →
    t.regs = { s.regs with overrun := t.regs.overrun } ∧ t.engine = s.engine

/-- R48 at reset. -/
def Obligations.ResetSatisfiesTheInvariants : Prop :=
  Inv State.reset.regs ∧ Pristine State.reset.regs

/-- R48: the invariants hold after reset, and every step of the block and its host keeps them, in every
state that has them. -/
def Obligations.StepKeepsTheInvariants : Prop :=
  Inv State.reset.regs ∧ ∀ s t : State, Inv s.regs → step s = .next t → Inv t.regs

/-- Before the first successful INIT the cipher registers hold their reset values: every step keeps
it. -/
def Obligations.StepKeepsUninitialisedRegistersZero : Prop :=
  ∀ s t : State, Pristine s.regs → step s = .next t → Pristine t.regs

/-- R244: a program that waits after every command never meets the hazard, never has a write dropped,
and goes on being such a program. -/
def Obligations.DutyAvoidsTheHazard : Prop :=
  ∀ s t : State, Dutiful s → step s = .next t →
    hazard s = false ∧ Dutiful t ∧ (t.regs.overrun = true → s.regs.overrun = true)

/-- R247: a machine with nothing to do stays as it is, and a run with a command in flight is not over:
its steps come to an idle engine. -/
def Obligations.RunsEndIdle : Prop :=
  (∀ s : State, finished s → step s = .next s) ∧
  (∀ s : State, s.env.host = [] → ∃ n t, Host.Core.run Sys2Proof.core n s = .next t ∧ finished t)

/-- R29, R91, R243: `wait` reads `STATUS`, once and again while `READY` is 0, and goes on at the first
read that returns it 1. -/
def Obligations.WaitEndsAtReady : Prop :=
  ∀ (s : State) (rest : List HostOp), s.env.host = .wait :: rest →
    (s.engine.phase = .idle → ∃ t, step s = .next t ∧ t.env.host = rest ∧
      t.env.reads = s.env.reads ++ [statusWord s] ∧ t.regs = s.regs ∧ t.engine = s.engine) ∧
    (∀ d, s.engine.phase = .busy → s.env.delay = d + 1 → ∃ t, step s = .next t ∧
      t.env.host = .wait :: rest ∧ t.env.delay = d ∧
      t.env.reads = s.env.reads ++ [statusWord s] ∧ t.regs = s.regs ∧ t.engine = s.engine)

/-- R29, R91, R240, R243, R244: from any idle state, whatever the latency, writing a command word and
waiting comes to an idle state with the wait over, whose registers are those that the one completion
of the word gives. -/
def Obligations.RunCommandHandshake : Prop :=
  ∀ (s : State) (c : Word) (rest : List HostOp), s.engine.phase = .idle →
    s.env.host = .bus (.write (regAddr .cmd) c) :: .wait :: rest →
    ∃ n t u, Host.Core.run Sys2Proof.core n s = .next t ∧
      engineStep { s with engine.phase := .busy, engine.cur := c } = .next u ∧
      t.regs = u.regs ∧ t.engine.phase = .idle ∧ t.env.host = rest

/-- R243, R244, R247 (95_test_vectors section 3): two runs of the same program from the same registers,
whatever the latencies, end with the same registers, if the program waits after every command. -/
def Obligations.LatencyIsUnobservableAtTheEnd : Prop :=
  ∀ (s₁ s₂ t₁ t₂ : State) (n₁ n₂ : Nat), Dutiful s₁ → Dutiful s₂ →
    s₁.regs = s₂.regs → s₁.engine = s₂.engine → s₁.env.host = s₂.env.host →
    Host.Core.run Sys2Proof.core n₁ s₁ = .next t₁ → finished t₁ →
    Host.Core.run Sys2Proof.core n₂ s₂ = .next t₂ → finished t₂ →
    t₁.regs = t₂.regs

/-- R90, R4, R72 (log entries 9, 10): an idle host's asserted read goes on exactly when the value is
the one asserted, and a second host is refused. -/
def Obligations.HostStops : Prop :=
  (∀ (s : State) (a : Addr) (v : Word) (rest : List HostOp), s.engine.phase = .idle →
    s.env.host = .expect a v :: rest →
    (busRead a s = v → ∃ t, step s = .next t ∧ t.env.host = rest ∧ t.regs = s.regs ∧
      t.env.reads = s.env.reads ++ [v]) ∧
    (busRead a s ≠ v → step s = .fault .assertionFailed)) ∧
  (∀ (s : State) (x : Transaction) (rest : List HostOp), s.engine.phase = .idle →
    s.env.host = .secondHost x :: rest → step s = .refused .secondHost)
end

