-- ==== Sys2Proof/Laws/State.lean ====
section
/-! SUPPORT. One lemma for each field of the state under each named update, so that no proof unfolds
an update. -/

namespace Sys2Proof.Machine

section
variable (s : State) (e : ErrCode) (c v : Word) (r : Reg)

@[simp] theorem complete_regs : (complete e s).regs = { s.regs with err := e } := rfl
@[simp] theorem complete_engine : (complete e s).engine = { s.engine with phase := .idle } := rfl
@[simp] theorem complete_env : (complete e s).env = s.env := rfl

@[simp] theorem completeIllegal_eq : completeIllegal s = complete .illegalCommand s := rfl

@[simp] theorem accept_regs : (accept c s).regs = s.regs := rfl
@[simp] theorem accept_engine :
    (accept c s).engine = { s.engine with phase := .busy, cur := c } := rfl
@[simp] theorem accept_env : (accept c s).env = takeLatency c s.env := rfl

@[simp] theorem dropWrite_regs : (dropWrite s).regs = { s.regs with overrun := true } := rfl
@[simp] theorem dropWrite_engine : (dropWrite s).engine = s.engine := rfl
@[simp] theorem dropWrite_env : (dropWrite s).env = s.env := rfl

@[simp] theorem resetBlock_regs : (resetBlock s).regs = Regs.reset := rfl
@[simp] theorem resetBlock_engine : (resetBlock s).engine = Engine.reset := rfl
@[simp] theorem resetBlock_env : (resetBlock s).env = s.env := rfl

@[simp] theorem popHost_regs : (popHost s).regs = s.regs := rfl
@[simp] theorem popHost_engine : (popHost s).engine = s.engine := rfl
@[simp] theorem popHost_env : (popHost s).env = { s.env with host := s.env.host.tail } := rfl

@[simp] theorem recordRead_regs : (recordRead v s).regs = s.regs := rfl
@[simp] theorem recordRead_engine : (recordRead v s).engine = s.engine := rfl
@[simp] theorem recordRead_env : (recordRead v s).env =
    { s.env with reads := s.env.reads ++ [v], draws := s.env.draws + 1 } := rfl

@[simp] theorem runPermutation_regs : (runPermutation s).regs = s.regs := rfl
@[simp] theorem runPermutation_engine : (runPermutation s).engine =
    { s.engine with work := permute s.regs.st (activeRounds s), rc := activeRounds s } := rfl
@[simp] theorem runPermutation_env : (runPermutation s).env = s.env := rfl

@[simp] theorem generate_regs : (generate s).regs =
    { s.regs with
      ks := blockOf s.regs.st (activeRounds s)
      st := withCounter s.regs.st (ctrInc s.regs.st[12] s.regs.st[13]).lo
        (ctrInc s.regs.st[12] s.regs.st[13]).hi
      ksValid := true
      exhausted := (ctrInc s.regs.st[12] s.regs.st[13]).wrapped } := rfl
@[simp] theorem generate_engine : (generate s).engine =
    { s.engine with work := permute s.regs.st (activeRounds s), rc := activeRounds s } := rfl
@[simp] theorem generate_env : (generate s).env = s.env := rfl

@[simp] theorem applyKeystream_regs : (applyKeystream s).regs =
    { s.regs with dataOut := xorBlock s.regs.dataIn s.regs.ks } := rfl
@[simp] theorem applyKeystream_engine : (applyKeystream s).engine = s.engine := rfl
@[simp] theorem applyKeystream_env : (applyKeystream s).env = s.env := rfl

@[simp] theorem withFetchWord_regs (n w : Nat) : (s.withFetchWord n w).regs = s.regs := rfl
@[simp] theorem withFetchWord_engine (n w : Nat) : (s.withFetchWord n w).engine =
    { s.engine with phase := .busy, cur := BitVec.ofNat 32 (w % 2 ^ n) } := rfl
@[simp] theorem withFetchWord_env (n w : Nat) :
    (s.withFetchWord n w).env = { s.env with delay := 0 } := rfl

end

@[simp] theorem takeLatency_host (c : Word) (e : Env) : (takeLatency c e).host = e.host := by
  unfold takeLatency; split <;> rfl

@[simp] theorem takeLatency_reads (c : Word) (e : Env) : (takeLatency c e).reads = e.reads := by
  unfold takeLatency; split <;> rfl

end Sys2Proof.Machine
end

