-- ==== Sys2Proof/Laws/Ops.lean ====
section
/-! SUPPORT. What each meaning and each shared operation can do, said once: the cases of a command, of
a bus write, of a host step and of a step. Proofs cite these and unfold nothing. -/

namespace Sys2Proof.Machine

variable {s t : State}

/-! ### What each command answers, by the checks it makes (R202) -/

theorem execInit_of_legal (h : roundsLegal s.regs.config.rounds = true) :
    execInit s = .next (complete .ok { s with regs := initRegs s.regs }) := by
  simp [execInit, h]

theorem execInit_of_illegal (h : roundsLegal s.regs.config.rounds = false) :
    execInit s = .next (complete .invalidRounds s) := by
  simp [execInit, h]

theorem execNext_of_uninitialized (h : s.regs.initialized = false) :
    execNext s = .next (complete .notInitialized s) := by
  simp [execNext, h]

theorem execNext_of_exhausted (h : s.regs.initialized = true) (hx : s.regs.exhausted = true) :
    execNext s = .next (complete .counterExhausted s) := by
  simp [execNext, h, hx]

theorem execNext_of_ready (h : s.regs.initialized = true) (hx : s.regs.exhausted = false) :
    execNext s = .next (complete .ok (generate s)) := by
  simp [execNext, h, hx]

theorem execXor_of_uninitialized (h : s.regs.initialized = false) :
    execXor s = .next (complete .notInitialized s) := by
  simp [execXor, h]

theorem execXor_of_no_keystream (h : s.regs.initialized = true) (hk : s.regs.ksValid = false) :
    execXor s = .next (complete .noKeystream s) := by
  simp [execXor, h, hk]

theorem execXor_of_ready (h : s.regs.initialized = true) (hk : s.regs.ksValid = true) :
    execXor s = .next (complete .ok (applyKeystream s)) := by
  simp [execXor, h, hk]

theorem execCrypt_of_uninitialized (h : s.regs.initialized = false) :
    execCrypt s = .next (complete .notInitialized s) := by
  simp [execCrypt, h]

theorem execCrypt_of_exhausted (h : s.regs.initialized = true) (hx : s.regs.exhausted = true) :
    execCrypt s = .next (complete .counterExhausted s) := by
  simp [execCrypt, h, hx]

theorem execCrypt_of_ready (h : s.regs.initialized = true) (hx : s.regs.exhausted = false) :
    execCrypt s = .next (complete .ok (applyKeystream (generate s))) := by
  simp [execCrypt, h, hx]

theorem execWrctr_of_uninitialized (h : s.regs.initialized = false) :
    execWrctr s = .next (complete .notInitialized s) := by
  simp [execWrctr, h]

theorem execWrctr_of_initialized (h : s.regs.initialized = true) :
    execWrctr s = .next (complete .ok
      { s with
        regs.st := withCounter s.regs.st s.regs.ctrInLo s.regs.ctrInHi
        regs.exhausted := false }) := by
  simp [execWrctr, h]

/-! ### Two blocks word by word (R146, R181) -/

@[simp] theorem zipWords_getElem (f : Word → Word → Word) (x y : Block) (i : Nat) (h : i < 16) :
    (zipWords f x y)[i] = f x[i] y[i] := by
  simp [zipWords]

/-! ### The words of the state register after a counter write (R20) -/

@[simp] theorem withCounter_lo (b : Block) (lo hi : Word) : (withCounter b lo hi)[12] = lo := by
  simp [withCounter]

@[simp] theorem withCounter_hi (b : Block) (lo hi : Word) : (withCounter b lo hi)[13] = hi := by
  simp [withCounter]

theorem withCounter_other (b : Block) (lo hi : Word) (i : Nat) (h : i < 16) (h12 : i ≠ 12)
    (h13 : i ≠ 13) : (withCounter b lo hi)[i] = b[i] := by
  simp [withCounter, h12.symm, h13.symm]

@[simp] theorem counter_withCounter (b : Block) (lo hi : Word) :
    counter (withCounter b lo hi) = hi ++ lo := by
  simp [counter]

/-! ### Inversion: what a command has done when it answers a next state -/

theorem execNop_cases (h : execNop s = .next t) :
    t = complete .ok { s with regs.overrun := false } := by
  simpa [execNop] using h.symm

theorem execInit_cases (h : execInit s = .next t) :
    (roundsLegal s.regs.config.rounds = true ∧
      t = complete .ok { s with regs := initRegs s.regs }) ∨
    (roundsLegal s.regs.config.rounds = false ∧ t = complete .invalidRounds s) := by
  unfold execInit at h
  split at h <;> simp_all

theorem execNext_cases (h : execNext s = .next t) :
    (s.regs.initialized = false ∧ t = complete .notInitialized s) ∨
    (s.regs.initialized = true ∧ s.regs.exhausted = true ∧ t = complete .counterExhausted s) ∨
    (s.regs.initialized = true ∧ s.regs.exhausted = false ∧ t = complete .ok (generate s)) := by
  unfold execNext at h
  split at h
  · simp_all
  · split at h <;> simp_all

theorem execXor_cases (h : execXor s = .next t) :
    (s.regs.initialized = false ∧ t = complete .notInitialized s) ∨
    (s.regs.initialized = true ∧ s.regs.ksValid = false ∧ t = complete .noKeystream s) ∨
    (s.regs.initialized = true ∧ s.regs.ksValid = true ∧
      t = complete .ok (applyKeystream s)) := by
  unfold execXor at h
  split at h
  · simp_all
  · split at h <;> simp_all

theorem execCrypt_cases (h : execCrypt s = .next t) :
    (s.regs.initialized = false ∧ t = complete .notInitialized s) ∨
    (s.regs.initialized = true ∧ s.regs.exhausted = true ∧ t = complete .counterExhausted s) ∨
    (s.regs.initialized = true ∧ s.regs.exhausted = false ∧
      t = complete .ok (applyKeystream (generate s))) := by
  unfold execCrypt at h
  split at h
  · simp_all
  · split at h <;> simp_all

theorem execWrctr_cases (h : execWrctr s = .next t) :
    (s.regs.initialized = false ∧ t = complete .notInitialized s) ∨
    (s.regs.initialized = true ∧ t = complete .ok
      { s with
        regs.st := withCounter s.regs.st s.regs.ctrInLo s.regs.ctrInHi
        regs.exhausted := false }) := by
  unfold execWrctr at h
  split at h <;> simp_all

theorem execQrtest_env (h : execQrtest s = .next t) : t.env = s.env := by
  cases h; rfl

/-- A command leaves the host's side of the state alone. -/
theorem exec_env {i : Instr} (h : exec i s = .next t) : t.env = s.env := by
  cases i with
  | nop => rw [execNop_cases h]; rfl
  | init => obtain ⟨-, rfl⟩ | ⟨-, rfl⟩ := execInit_cases h <;> rfl
  | next => obtain ⟨-, rfl⟩ | ⟨-, -, rfl⟩ | ⟨-, -, rfl⟩ := execNext_cases h <;> simp
  | xor => obtain ⟨-, rfl⟩ | ⟨-, -, rfl⟩ | ⟨-, -, rfl⟩ := execXor_cases h <;> simp
  | crypt => obtain ⟨-, rfl⟩ | ⟨-, -, rfl⟩ | ⟨-, -, rfl⟩ := execCrypt_cases h <;> simp
  | wrctr => obtain ⟨-, rfl⟩ | ⟨-, rfl⟩ := execWrctr_cases h <;> rfl
  | qrtest => exact execQrtest_env h

/-- What a bus write can do (R65, R240, R241). -/
theorem busWrite_cases (a : Addr) (v : Word) (s : State) :
    (s.engine.phase = .busy ∧ busWrite a v s = dropWrite s) ∨
    (s.engine.phase = .idle ∧ regAt a = none ∧ busWrite a v s = s) ∨
    (∃ r, s.engine.phase = .idle ∧ regAt a = some r ∧ busWrite a v s = writeReg r v s) := by
  unfold busWrite
  split
  · exact .inl ⟨‹_›, rfl⟩
  · split
    · exact .inr (.inl ⟨‹_›, ‹_›, rfl⟩)
    · exact .inr (.inr ⟨_, ‹_›, ‹_›, rfl⟩)

theorem busRead_of_regAt {a : Addr} {r : Reg} (h : regAt a = some r) (hi : s.engine.phase = .idle) :
    busRead a s = readReg r s := by
  simp [busRead, h, hi]

theorem busRead_unmapped {a : Addr} (h : regAt a = none) : busRead a s = 0 := by
  simp [busRead, h]

theorem busRead_of_not_isResult {a : Addr} {r : Reg} (h : regAt a = some r)
    (hr : isResult r = false) : busRead a s = readReg r s := by
  simp only [busRead, h, hr]
  cases s.engine.phase <;> rfl

theorem nextTurn_engine_iff : nextTurn s = .engine ↔ s.engine.phase = .busy ∧ s.env.delay = 0 := by
  unfold nextTurn
  split <;> simp_all

/-- Whose move a step is, with the state a host move starts from (R243). -/
theorem step_cases (s : State) :
    (s.engine.phase = .busy ∧ s.env.delay = 0 ∧ step s = engineStep s) ∨
    (s.engine.phase = .idle ∧ step s = hostStep s) ∨
    (∃ d, s.engine.phase = .busy ∧ s.env.delay = d + 1 ∧
      step s = hostStep { s with env.delay := d }) := by
  cases hp : s.engine.phase with
  | idle => exact .inr (.inl ⟨rfl, by simp [step, nextTurn, hp]⟩)
  | busy =>
    cases hd : s.env.delay with
    | zero => exact .inl ⟨rfl, rfl, by simp [step, nextTurn, hp, hd]⟩
    | succ d => exact .inr (.inr ⟨d, rfl, rfl, by simp [step, nextTurn, hp, hd]⟩)

theorem step_of_idle (h : s.engine.phase = .idle) : step s = hostStep s := by
  simp [step, nextTurn, h]

theorem step_of_completion (h : s.engine.phase = .busy) (hd : s.env.delay = 0) :
    step s = engineStep s := by
  simp [step, nextTurn, h, hd]

theorem step_of_waiting {d : Nat} (h : s.engine.phase = .busy) (hd : s.env.delay = d + 1) :
    step s = hostStep { s with env.delay := d } := by
  simp [step, nextTurn, h, hd]

/-- What a completion can do: a decoded command is performed, and any other word reports
`ILLEGAL_COMMAND` (R81). -/
theorem engineStep_cases (s : State) :
    (∃ i, decode s.engine.cur = .instr i ∧ engineStep s = exec i s) ∨
    ((∀ i, decode s.engine.cur ≠ .instr i) ∧
      engineStep s = .next (complete .illegalCommand s)) := by
  unfold engineStep
  split
  · exact .inl ⟨_, ‹_›, rfl⟩
  · exact .inr ⟨by simp_all, rfl⟩
  · exact .inr ⟨by simp_all, rfl⟩

/-- A read or a transaction in reset changes the block in no way. -/
@[simp] theorem transactInReset_regs (t : Transaction) : (transactInReset s t).regs = s.regs := by
  cases t <;> rfl

@[simp] theorem transactInReset_engine (t : Transaction) :
    (transactInReset s t).engine = s.engine := by
  cases t <;> rfl

@[simp] theorem transactInReset_host (t : Transaction) :
    (transactInReset s t).env.host = s.env.host := by
  cases t <;> rfl

theorem foldl_transactInReset (ts : List Transaction) (s : State) :
    (ts.foldl transactInReset s).regs = s.regs ∧
    (ts.foldl transactInReset s).engine = s.engine ∧
    (ts.foldl transactInReset s).env.host = s.env.host := by
  induction ts generalizing s with
  | nil => exact ⟨rfl, rfl, rfl⟩
  | cons t ts ih => simpa using ih (transactInReset s t)

@[simp] theorem resetAction_regs (ts : List Transaction) : (resetAction ts s).regs = Regs.reset :=
  (foldl_transactInReset ts (resetBlock s)).1

@[simp] theorem resetAction_engine (ts : List Transaction) :
    (resetAction ts s).engine = Engine.reset :=
  (foldl_transactInReset ts (resetBlock s)).2.1

@[simp] theorem resetAction_host (ts : List Transaction) :
    (resetAction ts s).env.host = s.env.host :=
  (foldl_transactInReset ts (resetBlock s)).2.2

@[simp] theorem waitRead_regs : (waitRead s).regs = s.regs := by
  unfold waitRead; dsimp only; split <;> rfl

@[simp] theorem waitRead_engine : (waitRead s).engine = s.engine := by
  unfold waitRead; dsimp only; split <;> rfl

theorem expectRead_cases {a : Addr} {v : Word} (h : expectRead a v s = .next t) :
    readIsOpen a s = false ∧ busRead a s = v ∧ t = popHost (recordRead v s) := by
  unfold expectRead at h
  split at h
  · exact absurd h (by simp)
  · split at h
    · exact ⟨by simp_all, ‹_›, by simpa using h.symm⟩
    · exact absurd h (by simp)

/-! ### The host's step, by the item it has come to -/

theorem hostStep_of_nil (h : s.env.host = []) : hostStep s = .next s := by
  unfold hostStep; rw [h]

theorem hostStep_of_bus {x : Transaction} {rest : List HostOp} (h : s.env.host = .bus x :: rest) :
    hostStep s = .next (transact x (popHost s)) := by
  unfold hostStep; rw [h]

theorem hostStep_of_expect {a : Addr} {v : Word} {rest : List HostOp}
    (h : s.env.host = .expect a v :: rest) : hostStep s = expectRead a v s := by
  unfold hostStep; rw [h]

theorem hostStep_of_wait {rest : List HostOp} (h : s.env.host = .wait :: rest) :
    hostStep s = .next (waitRead s) := by
  unfold hostStep; rw [h]

theorem hostStep_of_reset {during : List Transaction} {rest : List HostOp}
    (h : s.env.host = .reset during :: rest) :
    hostStep s = .next (resetAction during (popHost s)) := by
  unfold hostStep; rw [h]

theorem hostStep_of_secondHost {x : Transaction} {rest : List HostOp}
    (h : s.env.host = .secondHost x :: rest) : hostStep s = .refused .secondHost := by
  unfold hostStep; rw [h]

/-- What a host step can do to the block: nothing, one bus write, or a reset. -/
theorem hostStep_cases (h : hostStep s = .next t) :
    (t.regs = s.regs ∧ t.engine = s.engine) ∨
    (∃ a v rest, s.env.host = .bus (.write a v) :: rest ∧ t = busWrite a v (popHost s)) ∨
    (∃ during rest, s.env.host = .reset during :: rest ∧
      t.regs = Regs.reset ∧ t.engine = Engine.reset ∧ t.env.host = rest) := by
  unfold hostStep at h
  split at h
  · cases h; exact .inl ⟨rfl, rfl⟩
  · rename_i x rest hh
    cases h
    cases x with
    | write a v => exact .inr (.inl ⟨a, v, rest, hh, rfl⟩)
    | read a => exact .inl ⟨rfl, rfl⟩
  · obtain ⟨-, -, rfl⟩ := expectRead_cases h
    exact .inl ⟨rfl, rfl⟩
  · cases h; exact .inl ⟨waitRead_regs, waitRead_engine⟩
  · rename_i during rest hh
    cases h
    exact .inr (.inr ⟨during, rest, hh, by simp, by simp, by simp [hh]⟩)
  · cases h

end Sys2Proof.Machine
end

