-- ==== Sys2Proof/Laws/PerInstr.lean ====
section
/-! SUPPORT. Facts about every command as syntax, one lemma for each constructor: it is well formed,
its word keeps `RSV` zero and an opcode of the map, and its word decodes to it. -/

namespace Sys2Proof.Laws

/-- R80 to R82 of one command. -/
def Encoding.Statement (i : Instr) : Prop :=
  i.wf = true ∧ wfCommandBits (encode i) = true ∧ wfCommandOpcode (encode i) = true ∧
    decode (encode i) = .instr i

theorem Encoding.nop : Encoding.Statement .nop := by unfold Encoding.Statement; decide
theorem Encoding.init : Encoding.Statement .init := by unfold Encoding.Statement; decide
theorem Encoding.next : Encoding.Statement .next := by unfold Encoding.Statement; decide
theorem Encoding.xor : Encoding.Statement .xor := by unfold Encoding.Statement; decide
theorem Encoding.crypt : Encoding.Statement .crypt := by unfold Encoding.Statement; decide
theorem Encoding.wrctr : Encoding.Statement .wrctr := by unfold Encoding.Statement; decide
theorem Encoding.qrtest : Encoding.Statement .qrtest := by unfold Encoding.Statement; decide

end Sys2Proof.Laws
end

