-- ==== Sys2Proof/Laws/Run.lean ====
section
/-! SUPPORT. Runs: one step taken off the front of a run of the machine. -/

namespace Sys2Proof.Machine

theorem run_zero (M : Host.Core) (s : M.State) : M.run 0 s = .next s := rfl

theorem run_succ_of_next (M : Host.Core) (n : Nat) (s t : M.State) (h : M.step s = .next t) :
    M.run (n + 1) s = M.run n t := by
  simp only [Host.Core.run, h]

theorem run_succ_of_fault (M : Host.Core) (n : Nat) (s : M.State) (f : M.Fault)
    (h : M.step s = .fault f) : M.run (n + 1) s = .fault f := by
  simp only [Host.Core.run, h]

theorem run_succ_of_refused (M : Host.Core) (n : Nat) (s : M.State) (r : M.Refusal)
    (h : M.step s = .refused r) : M.run (n + 1) s = .refused r := by
  simp only [Host.Core.run, h]

/-- A run of the block and its host goes on from the state its first step answers. -/
theorem core_run_succ {s t : State} (n : Nat) (h : step s = .next t) :
    Host.Core.run Sys2Proof.core (n + 1) s = Host.Core.run Sys2Proof.core n t :=
  run_succ_of_next Sys2Proof.core n s t h

end Sys2Proof.Machine
end

