-- ==== Sys2Proof/Tests/Slice0.lean ====
section
/-! SUPPORT. Tests. Every expected value stands in the spec: the worked examples of its rules, and the
vectors and programs of 95_test_vectors. -/

namespace Sys2Proof.Tests

open Sys2Proof.Machine

/-- Whether an answer is a next state with a property. -/
def answered (a : Answer) (p : State → Bool) : Bool :=
  match a with
  | .next t => p t
  | .fault _ => false
  | .refused _ => false

/-- A state whose next step completes a command word. -/
def completing (c : Nat) (r : Regs) : State :=
  { State.reset with regs := r }.withFetchWord 32 c

/-- Registers with a configuration staged. -/
def staged (k : KeyLen) (rounds : BitVec 8) : Regs := { Regs.reset with config := ⟨k, rounds⟩ }

/-- V-I2's staging registers: key bytes 00..0f, `KEY[4..7]` any, nonce bytes a0..a7. -/
def stagedVI2 : Regs :=
  { staged .k128 12 with
    key := #v[0x03020100, 0x07060504, 0x0b0a0908, 0x0f0e0d0c, 1, 2, 3, 4]
    nonce := #v[0xa3a2a1a0, 0xa7a6a5a4] }

/-- V-I2's state register. -/
def stateVI2 : Block :=
  #v[0x61707865, 0x3120646e, 0x79622d36, 0x6b206574, 0x03020100, 0x07060504, 0x0b0a0908, 0x0f0e0d0c,
    0x03020100, 0x07060504, 0x0b0a0908, 0x0f0e0d0c, 0, 0, 0xa3a2a1a0, 0xa7a6a5a4]

/-- V-I1's state register, which is V-P0. -/
def stateVI1 : Block :=
  #v[0x61707865, 0x3320646e, 0x79622d32, 0x6b206574, 0, 0, 0, 0, 0, 0, 0, 0, 0, 0, 0, 0]

/-- V-P4, the block of V-I1's state. -/
def blockVP4 : Block :=
  #v[0xade0b876, 0x903df1a0, 0xe56a5d40, 0x28bd8653, 0xb819d2bd, 0x1aed8da0, 0xccef36a8, 0xc70d778b,
    0x7c5941da, 0x8d485751, 0x3fe02477, 0x374ad8b8, 0xf4b8436a, 0x1ca11815, 0x69b687c3, 0x8665eeb2]

/-- The data block of bytes 00..3f. -/
def dataBytes : Block :=
  #v[0x03020100, 0x07060504, 0x0b0a0908, 0x0f0e0d0c, 0x13121110, 0x17161514, 0x1b1a1918, 0x1f1e1d1c,
    0x23222120, 0x27262524, 0x2b2a2928, 0x2f2e2d2c, 0x33323130, 0x37363534, 0x3b3a3938, 0x3f3e3d3c]

/-- The registers after V-I1, with a state register. -/
def initialised (st : Block) (k : KeyLen) (rounds : BitVec 8) : Regs :=
  { staged k rounds with st := st, activeConfig := ⟨k, rounds⟩, initialized := true }

/-- The registers after V-I1 and one NEXT (V-B1). -/
def streaming : Regs :=
  { initialised (stateVI1.set 12 1) .k256 20 with ks := blockVP4, ksValid := true }

/-! ### Well-formedness: a term that each check refuses -/

theorem test_wf_command_bits : wfCommandBits 0x00000107 = false := by decide
theorem test_wf_command_opcode : wfCommandOpcode 0x00000007 = false := by decide
theorem test_wf_record : wfRecord 0x00100000001 = false := by decide
theorem test_wf_cfg_keylen : (Stmt.cfg 192 20).wf = false := by decide
theorem test_wf_cfg_rounds : (Stmt.cfg 256 256).wf = false := by decide
theorem test_wf_key : (Stmt.key [1, 2, 3]).wf = false := by decide

/-! ### Decoding: the words of R82, written out -/

theorem test_decode_nop : decode 0b00000000000000000000000000000000 = .instr .nop := by decide
theorem test_decode_init : decode 0b00000000000000000000000000000001 = .instr .init := by decide
theorem test_decode_next : decode 0b00000000000000000000000000000010 = .instr .next := by decide
theorem test_decode_xor : decode 0b00000000000000000000000000000011 = .instr .xor := by decide
theorem test_decode_crypt : decode 0b00000000000000000000000000000100 = .instr .crypt := by decide
theorem test_decode_wrctr : decode 0b00000000000000000000000000000101 = .instr .wrctr := by decide
theorem test_decode_qrtest : decode 0b00000000000000000000000000000110 = .instr .qrtest := by decide
/-- V-E5 and the last opcode of R83. -/
theorem test_decode_reserved_opcode :
    decode 0x00000007 = .reservedOpcode ∧ decode 0x000000FF = .reservedOpcode := by decide
/-- V-E4, and bit 31 alone. -/
theorem test_decode_reserved_bits :
    decode 0x00000107 = .reservedBits ∧ decode 0x80000000 = .reservedBits := by decide
theorem test_decode_table_word :
    decodeTableWord 32 4 = some .crypt ∧ decodeTableWord 32 7 = none := by decide

/-- The first records of program P1. -/
theorem test_record_encoding :
    encodeTransaction (.write 0x02 0x00001401) = 0x10200001401 ∧
    encodeTransaction (.read 0x4c) = 0x04c00000000 := by decide

/-! ### Words and bytes (R11, section 2.1) -/

/-- V-A1, V-A3. -/
theorem test_add_wraps :
    (0xFFFFFFFF + 0x00000001 : Word) = 0 ∧ (0xecff8273 + 0x5881c4bb : Word) = 0x4581472e := by
  decide
/-- V-A4 to V-A8. -/
theorem test_rotl32 :
    rotl32 0x13305172 16 = 0x51721330 ∧ rotl32 0xedfd8177 12 = 0xd8177edf ∧
    rotl32 0xbb5881c4 8 = 0x5881c4bb ∧ rotl32 0x9d9639f1 7 = 0xcb1cf8ce ∧
    rotl32 0x80000000 8 = 0x00000080 := by decide
/-- The first bytes of V-B1's block b1. -/
theorem test_ser : (ser blockVP4).take 8 = [0x76, 0xb8, 0xe0, 0xad, 0xa0, 0xf1, 0x3d, 0x90] := by
  decide
/-- R22's example: the bytes of `expa`. -/
theorem test_word_of_bytes : wordOfBytes 0x65 0x78 0x70 0x61 = 0x61707865 := by decide

/-! ### The quarter-round and the permutation (sections 2.2, 2.3) -/

/-- V-Q3, every addition wraps, and V-Q5. -/
theorem test_qr :
    qr ⟨0xffffffff, 0xffffffff, 0xffffffff, 0xffffffff⟩ =
      ⟨0xf0000ffd, 0x88790878, 0x0110fdef, 0x010ffdf0⟩ ∧
    qr ⟨1, 0, 0, 0⟩ = ⟨0x10000001, 0x80808808, 0x01010110, 0x01000110⟩ := by decide
/-- V-P1. -/
theorem test_column_pass :
    columnPass stateVI1 =
      #v[0xb7877feb, 0x16526ab4, 0xa0f85005, 0xb1d26bcb, 0x4a7d5c86, 0xfae0ea21, 0x66e11e68,
        0xe3a851a6, 0x5a83fd3f, 0xa0c7c792, 0xf75be0ef, 0x0b7556f4, 0xe21e9bcf, 0x3c599472,
        0xca29678d, 0xa600ebd4] := by decide
/-- V-P2. -/
theorem test_double_round :
    doubleRound stateVI1 =
      #v[0xe45fd249, 0x1bb820a6, 0xe31a88ea, 0xe667a9fe, 0x2a3bf673, 0x86bf4098, 0x460b500a,
        0xfa169886, 0x538dca0e, 0x0c439641, 0x00fa16bc, 0x8a08812a, 0x6bbf8b09, 0xc33013d6,
        0xbb9f9849, 0x87c62165] := by decide

/-! ### The commands, each in the one step that completes it -/

/-- R108's example, in the step that completes NOP. -/
theorem test_nop :
    answered (step (completing 0
      { Regs.reset with initialized := true, overrun := true, err := .illegalCommand }))
      (fun t => statusWord t == 0x00000003) = true := by decide
/-- V-I2. -/
theorem test_init_128 :
    answered (step (completing 1 stagedVI2))
      (fun t => t.regs.st == stateVI2 && statusWord t == 0x00000003 &&
        readReg .activeConfig t == 0x00000c00) = true := by decide
/-- V-I4: ten rounds, already initialised. -/
theorem test_init_invalid_rounds :
    answered (step (completing 1 { streaming with config := ⟨.k256, 10⟩, ksValid := false }))
      (fun t => t.regs.st == streaming.st && statusWord t == 0x00000303) = true := by decide
/-- V-B1: the all-zero ChaCha20 block (V-P4). -/
theorem test_next_chacha20 :
    answered (step (completing 2 (initialised stateVI1 .k256 20)))
      (fun t => t.regs.ks == blockVP4 && t.regs.st == stateVI1.set 12 1 &&
        statusWord t == 0x00000007) = true := by decide +kernel
/-- V-C3: the counter at 2^64-1. -/
theorem test_next_exhausts :
    answered (step (completing 2
      (initialised ((stateVI1.set 12 0xffffffff).set 13 0xffffffff) .k256 20)))
      (fun t => t.regs.st == stateVI1 && statusWord t == 0x0000000f) = true := by decide
/-- V-X1. -/
theorem test_xor :
    answered (step (completing 3 { streaming with dataIn := dataBytes }))
      (fun t => t.regs.dataOut ==
        #v[0xaee2b976, 0x973bf4a4, 0xee605448, 0x27b38b5f, 0xab0bc3ad, 0x0dfb98b4, 0xd7f52fb0,
          0xd8136a97, 0x5f7b60fa, 0xaa6e7275, 0x14ca0d5f, 0x1864f594, 0xc78a725a, 0x2b972d21,
          0x528cbefb, 0xb95bd38e] && statusWord t == 0x00000007) = true := by decide
/-- V-E3. -/
theorem test_xor_no_keystream :
    answered (step (completing 3 (initialised stateVI1 .k256 20)))
      (fun t => statusWord t == 0x00000503) = true := by decide
/-- Program P3: 128-bit key, 12 rounds. -/
theorem test_crypt :
    answered (step (completing 4 { initialised stateVI2 .k128 12 with dataIn := dataBytes }))
      (fun t => t.regs.dataOut[0] == 0x53abb8b1 && t.regs.dataOut[15] == 0x75e82e16 &&
        t.regs.ks[0] == 0x50a9b9b1 && t.regs.st[12] == 1 && statusWord t == 0x00000007) = true := by
  decide +kernel
/-- V-C4, for CRYPT. -/
theorem test_crypt_exhausted :
    answered (step (completing 4 { streaming with exhausted := true }))
      (fun t => t.regs.ks == blockVP4 && statusWord t == 0x0000060f) = true := by decide
/-- V-C5. -/
theorem test_wrctr :
    answered (step (completing 5 { streaming with exhausted := true, ctrInLo := 5 }))
      (fun t => t.regs.st == stateVI1.set 12 5 && statusWord t == 0x00000007) = true := by decide
/-- V-C6. -/
theorem test_wrctr_uninitialised :
    answered (step (completing 5 Regs.reset)) (fun t => statusWord t == 0x00000401) = true := by
  decide
/-- V-Q1 as program P6 runs it. -/
theorem test_qrtest :
    answered (step (completing 6
      { Regs.reset with dataIn :=
          #v[0x11111111, 0x01020304, 0x9b8d6f43, 0x01234567, 0, 0, 0, 0, 0, 0, 0, 0, 0, 0, 0, 0] }))
      (fun t => t.regs.dataOut ==
        #v[0xea2a92f4, 0xcb1cf8ce, 0x4581472e, 0x5881c4bb, 0, 0, 0, 0, 0, 0, 0, 0, 0, 0, 0, 0] &&
        statusWord t == 0x00000001) = true := by decide
/-- V-E4. -/
theorem test_illegal_word :
    answered (step (completing 0x107 streaming)) (fun t => statusWord t == 0x00000707) = true := by
  decide

/-! ### The bus and the host -/

/-- V-I6. -/
theorem test_config_write :
    readReg .config (busWrite 0x02 0xFFFF1401 State.reset) = 0x00001401 := by decide
/-- V-O1: the write to `KEY0` while NEXT is in flight is dropped. -/
theorem test_write_dropped :
    (busWrite 0x08 5 (completing 2 (initialised stateVI1 .k256 20))).regs.key[0] = 0 ∧
    (statusWord (busWrite 0x08 5 (completing 2 (initialised stateVI1 .k256 20)))).getLsbD 4 =
      true := by decide
/-- A read of the last mapped and of the first unmapped address after it (R43). -/
theorem test_read_map_edge :
    busRead 0x5F { State.reset with regs := streaming } = 0x8665eeb2 ∧
    busRead 0x60 { State.reset with regs := streaming } = 0 := by decide
/-- R230: a read during reset returns 0, and the command in flight is abandoned. -/
theorem test_reset_action :
    (resetAction [.read 0x01, .write 0x02 1] (completing 2 streaming)).env.reads = [0] ∧
    statusWord (resetAction [.read 0x01, .write 0x02 1] (completing 2 streaming)) = 1 := by decide
/-- Lines of programs P1 and P3, and R91's `cfg` and `run`. -/
theorem test_assembler :
    parseProgram ["wr CONFIG, 0x00001401   ; 256-bit key", "rd KS0, 0xade0b876", "", "cfg 128, 12",
      "run crypt"] =
    some [.bus (.write 0x02 0x00001401), .expect 0x50 0xade0b876, .bus (.write 0x02 0x00000c00),
      .bus (.write 0x00 0x00000004), .wait] := by decide
/-- R89's written form. -/
theorem test_record_text :
    transactionText (.write 0x02 0x00001401) = "W 02 00001401".toList ∧
    transactionText (.read 0x01) = "R 01".toList := by decide

end Sys2Proof.Tests
end

