-- ==== Sys2Proof/Tests/Witnesses.lean ====
section
/-! SUPPORT. For every statement with hypotheses, a concrete state and operands that meet all of them
together, clause by clause, at the ends of a range where a clause has one. The theorem `wit_<Name>`, or
`wit_<Name>_<clause>`, belongs to the statement `Obligations.<Name>`. -/

namespace Sys2Proof.Tests

open Sys2Proof.Machine

/-- The state after reset with other registers. -/
def withRegs (r : Regs) : State := { State.reset with regs := r }

/-- The state after reset with registers and a host program. -/
def hosting (r : Regs) (p : List HostOp) : State :=
  { State.reset with regs := r, env.host := p }

/-- A state with a command word in flight, engine cycles left, and a host program. -/
def inFlight (c : Word) (d : Nat) (r : Regs) (p : List HostOp) : State :=
  { State.reset with
    regs := r, engine.phase := .busy, engine.cur := c, env.delay := d, env.host := p }

/-- The registers after V-I1. -/
def readyVI1 : Regs := initialised stateVI1 .k256 20

/-- Registers of a run that used its last counter value (R162). -/
def exhaustedRegs : Regs := { streaming with st := stateVI1, exhausted := true }

/-- The state register of V-I1 with the last counter value. -/
def lastCounter : Block := (stateVI1.set 12 0xffffffff).set 13 0xffffffff

/-! ### Reset and boot -/

theorem wit_ResetAbandonsTheCommand_idle :
    (hosting streaming [.reset [.read 0x01, .write 0x02 1], .wait]).env.host =
        .reset [.read 0x01, .write 0x02 1] :: [.wait] ∧
      (hosting streaming [.reset [.read 0x01, .write 0x02 1], .wait]).engine.phase = .idle :=
  ⟨rfl, rfl⟩

theorem wit_ResetAbandonsTheCommand_busy :
    (inFlight 2 1 streaming [.reset []]).env.host = .reset [] :: [] ∧
      0 < (inFlight 2 1 streaming [.reset []]).env.delay := ⟨rfl, by decide⟩

theorem wit_OnlyResetUninitialises_clear :
    ∃ t, step (hosting streaming [.reset []]) = .next t ∧
      (hosting streaming [.reset []]).regs.initialized = true ∧ t.regs.initialized = false :=
  ⟨_, rfl, rfl, rfl⟩

theorem wit_OnlyResetUninitialises_set :
    ∃ t, step (inFlight 1 0 (staged .k256 20) []) = .next t ∧
      (inFlight 1 0 (staged .k256 20) []).regs.initialized = false ∧
      t.regs.initialized = true := ⟨_, rfl, rfl, rfl⟩

/-! ### Commands -/

theorem wit_NopClearsOverrun_other :
    Instr.qrtest ≠ .nop ∧ ∃ t, exec .qrtest State.reset = .next t := ⟨by decide, _, rfl⟩

theorem wit_NopClearsOverrun_busy : (inFlight 2 0 streaming []).engine.phase = .busy := rfl

theorem wit_NopClearsOverrun_example :
    statusWord (withRegs { Regs.reset with
      initialized := true, overrun := true, err := .illegalCommand }) = 0x00000713 := by decide

theorem wit_InitBuildsState :
    roundsLegal (withRegs (staged .k128 8)).regs.config.rounds = true ∧
      roundsLegal (withRegs (staged .k128 12)).regs.config.rounds = true ∧
      roundsLegal (withRegs (staged .k256 20)).regs.config.rounds = true := by decide

theorem wit_InitRefusesOtherRoundCounts_outside :
    (withRegs (staged .k256 0)).regs.config.rounds.toNat ∉ [8, 12, 20] ∧
      (withRegs (staged .k256 9)).regs.config.rounds.toNat ∉ [8, 12, 20] ∧
      (withRegs (staged .k256 255)).regs.config.rounds.toNat ∉ [8, 12, 20] := by decide

theorem wit_InitRefusesOtherRoundCounts_inside :
    (withRegs (staged .k256 8)).regs.config.rounds.toNat ∈ [8, 12, 20] ∧
      (withRegs (staged .k256 20)).regs.config.rounds.toNat ∈ [8, 12, 20] := by decide

theorem wit_InitRefusesOtherRoundCounts_other :
    Instr.wrctr ≠ .init ∧ ∃ t, exec .wrctr State.reset = .next t := ⟨by decide, _, rfl⟩

theorem wit_ReinitialisationReproduces :
    (withRegs streaming).regs.config = (withRegs (staged .k256 20)).regs.config ∧
      (withRegs streaming).regs.key = (withRegs (staged .k256 20)).regs.key ∧
      (withRegs streaming).regs.nonce = (withRegs (staged .k256 20)).regs.nonce ∧
      roundsLegal (withRegs streaming).regs.config.rounds = true := by decide

theorem wit_Init128IgnoresUpperKey :
    let s₁ := withRegs stagedVI2
    let s₂ := withRegs { stagedVI2 with key := stagedVI2.key.set 4 0xFFFFFFFF }
    s₁.regs.config = s₂.regs.config ∧ s₁.regs.nonce = s₂.regs.nonce ∧
      s₁.regs.config.keylen = .k128 ∧ roundsLegal s₁.regs.config.rounds = true ∧
      (∀ i (_ : i < 4), s₁.regs.key[i] = s₂.regs.key[i]) ∧ s₁.regs.key ≠ s₂.regs.key := by decide

theorem wit_NextGeneratesABlock :
    State.reset.regs.initialized = false ∧
      ((withRegs exhaustedRegs).regs.initialized = true ∧
        (withRegs exhaustedRegs).regs.exhausted = true) ∧
      ((withRegs readyVI1).regs.initialized = true ∧
        (withRegs readyVI1).regs.exhausted = false) := by decide

theorem wit_NextGeneratesABlock_example :
    (withRegs (staged .k256 20)).regs.config = ⟨.k256, 20⟩ ∧
      (withRegs (staged .k256 20)).regs.key = Vector.replicate 8 0 ∧
      (withRegs (staged .k256 20)).regs.nonce = Vector.replicate 2 0 := by decide

theorem wit_BlockDependsOnStateAlone :
    let s₁ := withRegs readyVI1
    let s₂ := withRegs { readyVI1 with dataIn := dataBytes, key := readyVI1.key.set 0 7 }
    s₁.regs.st = s₂.regs.st ∧ s₁.regs.activeConfig.rounds = s₂.regs.activeConfig.rounds ∧
      s₁.regs.initialized = true ∧ s₁.regs.exhausted = false ∧
      s₂.regs.initialized = true ∧ s₂.regs.exhausted = false := by decide

theorem wit_ExhaustionPolicy_last :
    let s := withRegs { readyVI1 with st := lastCounter }
    s.regs.initialized = true ∧ s.regs.exhausted = false ∧
      (counter s.regs.st).toNat = 2 ^ 64 - 1 := by decide

theorem wit_ExhaustionPolicy_exhausted :
    (withRegs exhaustedRegs).regs.initialized = true ∧
      (withRegs exhaustedRegs).regs.exhausted = true ∧
      roundsLegal (withRegs exhaustedRegs).regs.config.rounds = true := by decide

theorem wit_BlockSequence :
    roundsLegal (withRegs (staged .k256 20)).regs.config.rounds = true ∧ 0 ≤ 2 ^ 64 - 1 ∧
      2 ^ 64 - 1 ≤ 2 ^ 64 - 1 := ⟨by decide, Nat.zero_le _, le_rfl⟩

theorem wit_WrctrLoadsTheCounter :
    State.reset.regs.initialized = false ∧ (withRegs exhaustedRegs).regs.initialized = true := by
  decide

theorem wit_WrctrLoadsTheCounter_example :
    let s := withRegs { streaming with ctrInLo := 0xFFFFFFFF }
    s.regs.initialized = true ∧ s.regs.ctrInLo = 0xFFFFFFFF ∧ s.regs.ctrInHi = 0 := by decide

theorem wit_XorAppliesTheKeystream_example :
    let s := withRegs { streaming with dataIn := dataBytes }
    s.regs.initialized = true ∧ s.regs.ksValid = true ∧ s.regs.dataIn[0] = 0x03020100 ∧
      s.regs.ks[0] = 0xade0b876 := by decide

theorem wit_XorAppliesTheKeystream :
    State.reset.regs.initialized = false ∧
      ((withRegs readyVI1).regs.initialized = true ∧ (withRegs readyVI1).regs.ksValid = false) ∧
      ((withRegs streaming).regs.initialized = true ∧ (withRegs streaming).regs.ksValid = true ∧
        ∀ i (_ : i < 16), (withRegs streaming).regs.dataIn[i] = 0) := by decide

theorem wit_XorIsBytewise :
    (withRegs streaming).regs.initialized = true ∧ (withRegs streaming).regs.ksValid = true := by
  decide

theorem wit_XorInvolution :
    (withRegs exhaustedRegs).regs.initialized = true ∧
      (withRegs exhaustedRegs).regs.ksValid = true := by decide

theorem wit_PartialBlockPrefix :
    let s := withRegs { streaming with dataIn := dataBytes }
    let d := dataBytes.set 0 0xFF020100
    s.regs.initialized = true ∧ s.regs.ksValid = true ∧
      (ser d).take 3 = (ser s.regs.dataIn).take 3 ∧ ser d ≠ ser s.regs.dataIn := by decide

theorem wit_CryptGeneratesAndApplies :
    State.reset.regs.initialized = false ∧
      ((withRegs exhaustedRegs).regs.initialized = true ∧
        (withRegs exhaustedRegs).regs.exhausted = true) ∧
      ((withRegs streaming).regs.initialized = true ∧
        (withRegs streaming).regs.exhausted = false) := by decide

theorem wit_CryptGeneratesAndApplies_failing :
    ∃ m, exec .next (withRegs exhaustedRegs) = .next m ∧ m.regs.err ≠ .ok := ⟨_, rfl, by decide⟩

theorem wit_CryptGeneratesAndApplies_example :
    let s := withRegs { staged .k256 20 with dataIn := dataBytes }
    s.regs.config = ⟨.k256, 20⟩ ∧ s.regs.key = Vector.replicate 8 0 ∧
      s.regs.nonce = Vector.replicate 2 0 ∧ s.regs.dataIn[0] = 0x03020100 ∧
      s.regs.dataIn[1] = 0x07060504 ∧ s.regs.dataIn[2] = 0x0b0a0908 ∧
      s.regs.dataIn[3] = 0x0f0e0d0c := by decide

/-! ### The word operators, the quarter-round and the permutation -/

theorem wit_WordOperators : 0 < 1 ∧ 1 < 32 ∧ 0 < 31 ∧ 31 < 32 ∧ 0 < 32 := by decide

/-- V-Q1, the intermediate values the spec gives with V-A1 to V-A8. -/
theorem wit_QuarterRoundSequence :
    ∃ a b c d a₁ d₁ c₁ b₁ a₂ d₂ c₂ b₂ : Word,
      a = 0x11111111 ∧ b = 0x01020304 ∧ c = 0x9b8d6f43 ∧ d = 0x01234567 ∧
      a₁ = a + b ∧ d₁ = (d ^^^ a₁).rotateLeft 16 ∧ c₁ = c + d₁ ∧
      b₁ = (b ^^^ c₁).rotateLeft 12 ∧ a₂ = a₁ + b₁ ∧ d₂ = (d₁ ^^^ a₂).rotateLeft 8 ∧
      c₂ = c₁ + d₂ ∧ b₂ = (b₁ ^^^ c₂).rotateLeft 7 :=
  ⟨_, _, _, _, _, _, _, _, _, _, _, _, rfl, rfl, rfl, rfl, rfl, rfl, rfl, rfl, rfl, rfl, rfl, rfl⟩

theorem wit_QrwWritesFourWords :
    let l : Lane := ⟨0, 5, 10, 15⟩
    (l.ia ≠ l.ib ∧ l.ia ≠ l.ic ∧ l.ia ≠ l.id ∧ l.ib ≠ l.ic ∧ l.ib ≠ l.id ∧ l.ic ≠ l.id) ∧
      ((1 : Fin 16) ≠ l.ia ∧ (1 : Fin 16) ≠ l.ib ∧ (1 : Fin 16) ≠ l.ic ∧ (1 : Fin 16) ≠ l.id) := by
  decide

theorem wit_PassesByColumnAndDiagonal : 0 < 4 ∧ 3 < 4 := by decide

theorem wit_LaneOrderIsIrrelevant :
    (⟨3, 7, 11, 15⟩ : Lane) ∈ columnLanes ∧ (⟨3, 4, 9, 14⟩ : Lane) ∈ diagonalLanes ∧
      columnLanes.reverse.Perm columnLanes ∧ diagonalLanes.reverse.Perm diagonalLanes :=
  ⟨by decide, by decide, columnLanes.reverse_perm, diagonalLanes.reverse_perm⟩

theorem wit_SerialiserIsLittleEndian : 0 < 16 ∧ 15 < 16 ∧ 0 < 4 ∧ 3 < 4 := by decide

/-! ### Errors -/

theorem wit_FailureWritesErrAlone_exec :
    ∃ t, exec .xor (withRegs readyVI1) = .next t ∧ t.regs.err ≠ .ok := ⟨_, rfl, by decide⟩

theorem wit_FailureWritesErrAlone_step :
    let s := inFlight 0x107 0 streaming []
    s.engine.phase = .busy ∧ s.env.delay = 0 ∧ ∃ t, step s = .next t ∧ t.regs.err ≠ .ok :=
  ⟨rfl, rfl, _, rfl, by decide⟩

theorem wit_IllegalWordsReportIllegalCommand :
    ((inFlight 7 0 streaming []).engine.phase = .busy ∧
      (inFlight 7 0 streaming []).env.delay = 0) ∧
      7 ≤ ((0x00000007 : Word).extractLsb' 0 8).toNat ∧
      7 ≤ ((0x000000FF : Word).extractLsb' 0 8).toNat ∧
      (0x00000100 : Word).extractLsb' 8 24 ≠ 0 ∧ (0x80000000 : Word).extractLsb' 8 24 ≠ 0 ∧
      (((0x00000000 : Word).extractLsb' 0 8).toNat < 7 ∧
        (0x00000000 : Word).extractLsb' 8 24 = 0) ∧
      (((0x00000006 : Word).extractLsb' 0 8).toNat < 7 ∧
        (0x00000006 : Word).extractLsb' 8 24 = 0) := by decide

theorem wit_CheckOrder : ∀ i, decode 0x00000007 ≠ .instr i ∧ decode 0x00000100 ≠ .instr i := by
  intro i; cases i <;> decide

/-! ### Encoding -/

theorem wit_TransactionRecordsRoundTrip :
    decodeTransaction 0x10200001401 = some (.write 0x02 0x00001401) ∧
      decodeTransaction 0x0FF00000000 = some (.read 0xFF) := by decide

theorem wit_CfgWordStoresBothFields : 0 < 256 ∧ 255 < 256 := by decide

theorem wit_PseudoInstructionsExpand :
    ([1, 2, 3, 4, 5, 6, 7, 8] : List Word).length = 8 ∧ ([1, 2, 3, 4] : List Word).length = 4 ∧
      7 < ([1, 2, 3, 4, 5, 6, 7, 8] : List Word).length := by decide

/-! ### Registers and the bus -/

theorem wit_RegisterMap :
    regAt 0x00 = some .cmd ∧ regAt 0x5F = some (.ks 15) ∧ regAt 0x06 = none ∧ regAt 0x07 = none ∧
      regAt 0x12 = none ∧ regAt 0x1F = none ∧ regAt 0x60 = none ∧ regAt 0xFF = none := by decide

theorem wit_ConfigKeepsItsFields : State.reset.engine.phase = .idle := rfl

theorem wit_ReadsAndWritesByAddressKind :
    State.reset.engine.phase = .idle ∧ regAccess .config = .readWrite ∧
      regAccess (.dataIn 15) = .readWrite ∧ (0x00 : Addr) ≠ regAddr .config ∧
      regAccess .status = .readOnly ∧ regAccess (.ks 15) = .readOnly ∧
      regAt 0x06 = none ∧ regAt 0x60 = none ∧ (0x00 : Addr) = regAddr .cmd ∧
      (inFlight 2 0 streaming []).engine.phase = .busy := by decide

theorem wit_ReadsHaveNoSideEffects :
    State.reset.engine.phase = .idle ∧ (0x02 : Addr) ≠ regAddr .cmd := by decide

theorem wit_AcceptanceTakesEveryWord : (withRegs streaming).engine.phase = .idle := rfl

theorem wit_WritesWhileBusyAreDropped : (inFlight 2 3 streaming []).engine.phase = .busy := rfl

theorem wit_ReadsWhileBusy : (inFlight 4 0 streaming []).engine.phase = .busy := rfl

/-! ### The step, whole-machine rules and invariants -/

theorem wit_StepPerformsTheAcceptedCommand :
    let s := inFlight 4 0 streaming []
    s.engine.phase = .busy ∧ s.env.delay = 0 ∧ decode s.engine.cur = .instr .crypt := by decide

theorem wit_EveryAcceptedWordCompletes :
    (inFlight 0xFFFFFFFF 0 streaming []).engine.phase = .busy ∧
      (inFlight 0xFFFFFFFF 0 streaming []).env.delay = 0 := by decide

theorem wit_StateRegisterWriters :
    ∃ t, step (inFlight 5 0 { streaming with ctrInHi := 9 } []) = .next t ∧
      t.regs.st[13] ≠ (inFlight 5 0 { streaming with ctrInHi := 9 } []).regs.st[13] :=
  ⟨_, rfl, by decide⟩

theorem wit_OverrunIsSticky_set :
    ∃ t, step (inFlight 2 1 streaming [.bus (.write 0x08 5)]) = .next t ∧
      (inFlight 2 1 streaming [.bus (.write 0x08 5)]).regs.overrun = false ∧
      t.regs.overrun = true := ⟨_, rfl, rfl, rfl⟩

theorem wit_OverrunIsSticky_write :
    (inFlight 2 1 streaming [.bus (.write 0x08 5)]).engine.phase = .busy ∧
      0 < (inFlight 2 1 streaming [.bus (.write 0x08 5)]).env.delay ∧
      (inFlight 2 1 streaming [.bus (.write 0x08 5)]).env.host =
        .bus (.write 0x08 5) :: [] := by decide

theorem wit_OverrunIsSticky_nop :
    (inFlight 0 0 streaming []).engine.phase = .busy ∧ (inFlight 0 0 streaming []).env.delay = 0 ∧
      decode (inFlight 0 0 streaming []).engine.cur = .instr .nop := by decide

theorem wit_OverrunIsSticky_clear :
    ∃ t, step (inFlight 0 0 { streaming with overrun := true } []) = .next t ∧
      (inFlight 0 0 { streaming with overrun := true } []).regs.overrun = true ∧
      t.regs.overrun = false := ⟨_, rfl, rfl, rfl⟩

theorem wit_CommandsKeepTheStagingRegisters :
    ∃ t, exec .wrctr (withRegs { streaming with ctrInLo := 1 }) = .next t := ⟨_, rfl⟩

theorem wit_EffectsAppearAtCompletion :
    let s := inFlight 1 1 streaming [.bus (.write 0x08 5)]
    s.engine.phase = .busy ∧ 0 < s.env.delay ∧ (∃ t, step s = .next t) ∧
      ∀ during rest, s.env.host ≠ .reset during :: rest :=
  ⟨rfl, by decide, ⟨_, rfl⟩, fun _ _ h => by injection h with h; cases h⟩

theorem inv_exhaustedRegs : Inv exhaustedRegs :=
  ⟨by decide, by decide, by decide, by decide, by decide, by decide⟩

theorem wit_StepKeepsTheInvariants :
    Inv (inFlight 5 0 exhaustedRegs []).regs ∧
      ∃ t, step (inFlight 5 0 exhaustedRegs []) = .next t := ⟨inv_exhaustedRegs, _, rfl⟩

theorem wit_StepKeepsUninitialisedRegistersZero :
    Pristine (inFlight 2 0 (staged .k256 20) []).regs ∧
      ∃ t, step (inFlight 2 0 (staged .k256 20) []) = .next t :=
  ⟨⟨by decide, by decide, by decide⟩, _, rfl⟩

theorem wit_DutyAvoidsTheHazard_idle :
    Dutiful (hosting streaming [.bus (.write 0x00 2), .wait, .expect 0x50 1]) ∧
      ∃ t, step (hosting streaming [.bus (.write 0x00 2), .wait, .expect 0x50 1]) = .next t :=
  ⟨⟨by decide, by decide⟩, _, rfl⟩

theorem wit_DutyAvoidsTheHazard_busy :
    Dutiful (inFlight 2 1 streaming [.wait]) ∧
      ∃ t, step (inFlight 2 1 streaming [.wait]) = .next t := ⟨⟨by decide, by decide⟩, _, rfl⟩

theorem wit_RunsEndIdle :
    finished (withRegs streaming) ∧ (inFlight 2 5 streaming []).env.host = [] :=
  ⟨⟨rfl, rfl⟩, rfl⟩

theorem wit_WaitEndsAtReady_idle :
    (hosting streaming [.wait]).env.host = .wait :: [] ∧
      (hosting streaming [.wait]).engine.phase = .idle := ⟨rfl, rfl⟩

theorem wit_WaitEndsAtReady_busy :
    (inFlight 2 1 streaming [.wait]).env.host = .wait :: [] ∧
      (inFlight 2 1 streaming [.wait]).engine.phase = .busy ∧
      (inFlight 2 1 streaming [.wait]).env.delay = 0 + 1 := ⟨rfl, rfl, rfl⟩

theorem wit_RunCommandHandshake :
    let s := hosting streaming [.bus (.write (regAddr .cmd) 2), .wait, .bus (.read 0x50)]
    s.engine.phase = .idle ∧
      s.env.host = .bus (.write (regAddr .cmd) 2) :: .wait :: [.bus (.read 0x50)] := ⟨rfl, rfl⟩

/-- The same program of one NOP at two latencies, in three steps and in four. -/
theorem wit_LatencyIsUnobservableAtTheEnd :
    let p : List HostOp := [.bus (.write 0x00 0), .wait]
    let s₁ : State := { hosting streaming p with env.schedule := [0] }
    let s₂ : State := { hosting streaming p with env.schedule := [1] }
    Dutiful s₁ ∧ Dutiful s₂ ∧ s₁.regs = s₂.regs ∧ s₁.engine = s₂.engine ∧
      s₁.env.host = s₂.env.host ∧
      (∃ t₁, Host.Core.run Sys2Proof.core 3 s₁ = .next t₁ ∧ finished t₁) ∧
      (∃ t₂, Host.Core.run Sys2Proof.core 4 s₂ = .next t₂ ∧ finished t₂) :=
  ⟨⟨by decide, by decide⟩, ⟨by decide, by decide⟩, rfl, rfl, rfl, ⟨_, rfl, rfl, rfl⟩,
    ⟨_, rfl, rfl, rfl⟩⟩

theorem wit_HostStops :
    let s := hosting streaming [.expect 0x01 7]
    s.engine.phase = .idle ∧ s.env.host = .expect 0x01 7 :: [] ∧ busRead 0x01 s = 7 ∧
      (hosting Regs.reset [.expect 0x01 7]).env.host = .expect 0x01 7 :: [] ∧
      busRead 0x01 (hosting Regs.reset [.expect 0x01 7]) ≠ 7 ∧
      (hosting streaming [.secondHost (.read 0)]).env.host = .secondHost (.read 0) :: [] := by
  decide

end Sys2Proof.Tests
end

section
/-! The word operators of R11: `rotl32` is the library's rotation, its value as a number and its
bits. -/

namespace Sys2Proof.Machine

@[simp] theorem rotl32_eq_rotateLeft (x : Word) {n : Nat} (hn : n < 32) :
    rotl32 x n = x.rotateLeft n := by
  rw [rotl32, BitVec.rotateLeft_def, Nat.mod_eq_of_lt hn]

/-- The halves of a rotation occupy disjoint positions, the left shift those from `n` up and the right
shift those below `n`, so that joining them by "or" is adding them. -/
theorem shiftLeft_and_ushiftRight_eq_zero (x : Word) (n : Nat) :
    x <<< n &&& x >>> (32 - n) = 0#32 := by
  ext i hi
  by_cases hin : i < n
  · simp [hin]
  · have hout : 32 ≤ 32 - n + i := by omega
    simp [BitVec.getLsbD_of_ge x _ hout]

theorem rotl32_toNat (x : Word) (n : Nat) :
    (rotl32 x n).toNat = x.toNat * 2 ^ n % 2 ^ 32 + x.toNat / 2 ^ (32 - n) := by
  have hdisj := shiftLeft_and_ushiftRight_eq_zero x n
  calc (rotl32 x n).toNat
      _ = (x <<< n + x >>> (32 - n)).toNat := by
        rw [rotl32, BitVec.add_eq_or_of_and_eq_zero _ _ hdisj]
      _ = (x <<< n).toNat + (x >>> (32 - n)).toNat := BitVec.toNat_add_of_and_eq_zero hdisj
      _ = x.toNat * 2 ^ n % 2 ^ 32 + x.toNat / 2 ^ (32 - n) := by
        rw [BitVec.toNat_shiftLeft, BitVec.toNat_ushiftRight, Nat.shiftLeft_eq,
          Nat.shiftRight_eq_div_pow]

theorem rotl32_getLsbD (x : Word) {n i : Nat} (hn : n < 32) (hi : i < 32) :
    (rotl32 x n).getLsbD i = x.getLsbD ((i + (32 - n)) % 32) := by
  rw [rotl32_eq_rotateLeft x hn, BitVec.getLsbD_rotateLeft_of_le hn]
  by_cases hin : i < n
  · have hsource : (i + (32 - n)) % 32 = 32 - n + i := by omega
    simp [hin, hsource]
  · have hsource : (i + (32 - n)) % 32 = i - n := by omega
    simp [hin, hi, hsource]

/-- Settles O22: addition and exclusive or are the library's, and the rotation is read as a rotation,
as a number and bit by bit. -/
theorem wordOperators : Obligations.WordOperators := by
  intro x y
  refine ⟨BitVec.toNat_add x y, fun i _ => BitVec.getLsbD_xor, fun n _ hn => ⟨?_, ?_, ?_⟩⟩
  · exact rotl32_eq_rotateLeft x hn
  · exact rotl32_toNat x n
  · exact fun i hi => rotl32_getLsbD x hn hi

end Sys2Proof.Machine
end

section
/-! The invariants of R48: what a host write can change of the registers, what each command does to the
clauses, and the step. -/

namespace Sys2Proof.Machine

variable {s t : State} {r : Regs}

/-! ### What a host write leaves unchanged (R65, R241) -/

theorem writeReg_regs (x : Reg) (v : Word) (s : State) : (writeReg x v s).regs =
    { s.regs with
      config := (writeReg x v s).regs.config
      key := (writeReg x v s).regs.key
      nonce := (writeReg x v s).regs.nonce
      ctrInLo := (writeReg x v s).regs.ctrInLo
      ctrInHi := (writeReg x v s).regs.ctrInHi
      dataIn := (writeReg x v s).regs.dataIn } := by
  cases x <;> rfl

/-- A host write reaches the staging registers and `OVERRUN` alone. -/
theorem busWrite_regs (a : Addr) (v : Word) (s : State) : (busWrite a v s).regs =
    { s.regs with
      config := (busWrite a v s).regs.config
      overrun := (busWrite a v s).regs.overrun
      key := (busWrite a v s).regs.key
      nonce := (busWrite a v s).regs.nonce
      ctrInLo := (busWrite a v s).regs.ctrInLo
      ctrInHi := (busWrite a v s).regs.ctrInHi
      dataIn := (busWrite a v s).regs.dataIn } := by
  obtain ⟨-, h⟩ | ⟨-, -, h⟩ | ⟨x, -, -, h⟩ := busWrite_cases a v s
  · rw [h]; rfl
  · rw [h]
  · rw [h, writeReg_regs]

/-! ### The clauses of R48 under the updates -/

theorem inv_reset : Inv Regs.reset :=
  ⟨by decide, by decide, by decide, by decide, by decide, by decide⟩

theorem Inv.complete (h : Inv s.regs) (e : ErrCode) : Inv (complete e s).regs := { h with }

/-- R48 speaks of no register that a host write reaches. -/
theorem Inv.busWrite (h : Inv s.regs) (a : Addr) (v : Word) : Inv (busWrite a v s).regs := by
  rw [busWrite_regs]
  exact { h with }

theorem Inv.applyKeystream (h : Inv s.regs) : Inv (applyKeystream s).regs := { h with }

theorem ctrInc_wrapped_iff (lo hi : Word) :
    (ctrInc lo hi).wrapped = true ↔ (ctrInc lo hi).lo = 0 ∧ (ctrInc lo hi).hi = 0 := by
  simp [ctrInc]

/-- A new counter keeps the constant and the key words, so the only clauses at stake are those about
the flags written with it. -/
theorem Inv.withCounter (h : Inv r) (hinit : r.initialized = true) {lo hi : Word} {ks : Block}
    {valid exhausted : Bool}
    (hex : exhausted = true → valid = true ∧ lo = 0 ∧ hi = 0) :
    Inv { r with
      st := withCounter r.st lo hi, ks := ks, ksValid := valid, exhausted := exhausted } where
  ksValid_initialized _ := hinit
  exhausted_initialized hx := ⟨hinit, (hex hx).1⟩
  initialized_rounds := h.initialized_rounds
  initialized_constant _ i hi4 := by
    rw [withCounter_other _ _ _ i (by omega) (by omega) (by omega)]
    exact h.initialized_constant hinit i hi4
  initialized_key128 _ hk i hi4 := by
    rw [withCounter_other _ _ _ (4 + i) (by omega) (by omega) (by omega),
      withCounter_other _ _ _ (8 + i) (by omega) (by omega) (by omega)]
    exact h.initialized_key128 hinit hk i hi4
  exhausted_counter hx := by simpa using (hex hx).2

theorem Inv.generate (h : Inv s.regs) (hinit : s.regs.initialized = true) :
    Inv (generate s).regs :=
  h.withCounter hinit fun hw => ⟨rfl, (ctrInc_wrapped_iff _ _).1 hw⟩

/-! ### The state register INIT builds (R101, R102) -/

theorem initBlock_constant (k : KeyLen) (key : Vector Word 8) (nonce : Vector Word 2) (i : Nat)
    (hi : i < 4) : (initBlock k key nonce)[i] = (constantOf k)[i] := by
  interval_cases i <;> rfl

theorem initBlock_key128 (key : Vector Word 8) (nonce : Vector Word 2) (i : Nat) (hi : i < 4) :
    (initBlock .k128 key nonce)[4 + i] = (initBlock .k128 key nonce)[8 + i] := by
  interval_cases i <;> rfl

/-- INIT establishes R48 from any registers: the round count it has checked becomes the active one. -/
theorem inv_initRegs (hlegal : roundsLegal r.config.rounds = true) : Inv (initRegs r) where
  ksValid_initialized _ := rfl
  exhausted_initialized hx := absurd hx Bool.false_ne_true
  initialized_rounds _ := hlegal
  initialized_constant _ := initBlock_constant r.config.keylen r.key r.nonce
  initialized_key128 _ hk i hi := by
    have hk128 : r.config.keylen = .k128 := hk
    simp only [initRegs, hk128]
    exact initBlock_key128 r.key r.nonce i hi
  exhausted_counter hx := absurd hx Bool.false_ne_true

/-! ### The invariants along a step -/

theorem Inv.exec (h : Inv s.regs) {i : Instr} (hstep : exec i s = .next t) : Inv t.regs := by
  cases i with
  | nop => rw [execNop_cases hstep]; exact { h with }
  | init =>
    obtain ⟨hlegal, rfl⟩ | ⟨-, rfl⟩ := execInit_cases hstep
    · exact Inv.complete (inv_initRegs hlegal) _
    · exact h.complete _
  | next =>
    obtain ⟨-, rfl⟩ | ⟨-, -, rfl⟩ | ⟨hinit, -, rfl⟩ := execNext_cases hstep
    · exact h.complete _
    · exact h.complete _
    · exact (h.generate hinit).complete _
  | xor =>
    obtain ⟨-, rfl⟩ | ⟨-, -, rfl⟩ | ⟨-, -, rfl⟩ := execXor_cases hstep
    · exact h.complete _
    · exact h.complete _
    · exact h.applyKeystream.complete _
  | crypt =>
    obtain ⟨-, rfl⟩ | ⟨-, -, rfl⟩ | ⟨hinit, -, rfl⟩ := execCrypt_cases hstep
    · exact h.complete _
    · exact h.complete _
    · exact (h.generate hinit).applyKeystream.complete _
  | wrctr =>
    obtain ⟨-, rfl⟩ | ⟨hinit, rfl⟩ := execWrctr_cases hstep
    · exact h.complete _
    · exact Inv.complete (h.withCounter hinit fun hx => absurd hx Bool.false_ne_true) _
  | qrtest => cases hstep; exact { h with }

theorem Inv.engineStep (h : Inv s.regs) (hstep : engineStep s = .next t) : Inv t.regs := by
  obtain ⟨i, -, heq⟩ | ⟨-, heq⟩ := engineStep_cases s
  · exact h.exec (heq ▸ hstep)
  · cases heq ▸ hstep
    exact h.complete _

theorem Inv.hostStep (h : Inv s.regs) (hstep : hostStep s = .next t) : Inv t.regs := by
  obtain ⟨hregs, -⟩ | ⟨a, v, rest, -, rfl⟩ | ⟨during, rest, -, hregs, -, -⟩ :=
    hostStep_cases hstep
  · exact hregs ▸ h
  · exact Inv.busWrite (s := popHost s) h a v
  · exact hregs ▸ inv_reset

theorem Inv.step (h : Inv s.regs) (hstep : step s = .next t) : Inv t.regs := by
  obtain ⟨-, -, heq⟩ | ⟨-, heq⟩ | ⟨d, -, -, heq⟩ := step_cases s
  · exact h.engineStep (heq ▸ hstep)
  · exact h.hostStep (heq ▸ hstep)
  · exact Inv.hostStep (s := { s with env.delay := d }) h (heq ▸ hstep)

/-- Settles O52: reset has the invariants, and the engine's completion and every host move keep them. -/
theorem stepKeepsTheInvariants : Obligations.StepKeepsTheInvariants :=
  ⟨inv_reset, fun _ _ h hstep => h.step hstep⟩

end Sys2Proof.Machine
end

section
/-! `OVERRUN` (R33): what each agent's move does to it. -/

namespace Sys2Proof.Machine

variable {s t : State}

theorem busWrite_overrun_of_idle (a : Addr) (v : Word) (h : s.engine.phase = .idle) :
    (busWrite a v s).regs.overrun = s.regs.overrun := by
  obtain ⟨hbusy, -⟩ | ⟨-, -, heq⟩ | ⟨x, -, -, heq⟩ := busWrite_cases a v s
  · simp [h] at hbusy
  · rw [heq]
  · rw [heq, writeReg_regs]

theorem busWrite_overrun_of_busy (a : Addr) (v : Word) (h : s.engine.phase = .busy) :
    (busWrite a v s).regs.overrun = true := by
  simp [busWrite, h]

theorem exec_nop_overrun (h : exec .nop s = .next t) : t.regs.overrun = false := by
  rw [execNop_cases h]; rfl

/-- No command but NOP writes `OVERRUN` (R108). -/
theorem exec_overrun {i : Instr} (hi : i ≠ .nop) (h : exec i s = .next t) :
    t.regs.overrun = s.regs.overrun := by
  cases i with
  | nop => exact absurd rfl hi
  | init => obtain ⟨-, rfl⟩ | ⟨-, rfl⟩ := execInit_cases h <;> rfl
  | next => obtain ⟨-, rfl⟩ | ⟨-, -, rfl⟩ | ⟨-, -, rfl⟩ := execNext_cases h <;> rfl
  | xor => obtain ⟨-, rfl⟩ | ⟨-, -, rfl⟩ | ⟨-, -, rfl⟩ := execXor_cases h <;> rfl
  | crypt => obtain ⟨-, rfl⟩ | ⟨-, -, rfl⟩ | ⟨-, -, rfl⟩ := execCrypt_cases h <;> rfl
  | wrctr => obtain ⟨-, rfl⟩ | ⟨-, rfl⟩ := execWrctr_cases h <;> rfl
  | qrtest => cases h; rfl

theorem engineStep_of_instr {i : Instr} (h : decode s.engine.cur = .instr i) :
    engineStep s = exec i s := by
  simp [engineStep, h]

theorem engineStep_overrun_cases (h : engineStep s = .next t) :
    t.regs.overrun = s.regs.overrun ∨
    (decode s.engine.cur = .instr .nop ∧ t.regs.overrun = false) := by
  obtain ⟨i, hdec, heq⟩ | ⟨-, heq⟩ := engineStep_cases s
  · rw [heq] at h
    by_cases hi : i = .nop
    · subst hi; exact .inr ⟨hdec, exec_nop_overrun h⟩
    · exact .inl (exec_overrun hi h)
  · cases heq ▸ h; exact .inl rfl

theorem hostStep_overrun_cases (h : hostStep s = .next t) :
    t.regs.overrun = s.regs.overrun ∨
    (s.engine.phase = .busy ∧ (∃ a v rest, s.env.host = .bus (.write a v) :: rest) ∧
      t.regs.overrun = true) ∨
    ((∃ during rest, s.env.host = .reset during :: rest) ∧ t.regs.overrun = false) := by
  obtain ⟨hregs, -⟩ | ⟨a, v, rest, hhost, rfl⟩ | ⟨during, rest, hhost, hregs, -, -⟩ :=
    hostStep_cases h
  · exact .inl (by rw [hregs])
  · cases hp : s.engine.phase with
    | idle => exact .inl (busWrite_overrun_of_idle (s := popHost s) a v hp)
    | busy =>
      exact .inr (.inl
        ⟨rfl, ⟨a, v, rest, hhost⟩, busWrite_overrun_of_busy (s := popHost s) a v hp⟩)
  · exact .inr (.inr ⟨⟨during, rest, hhost⟩, by rw [hregs]; rfl⟩)

/-- What a step can do to `OVERRUN`: nothing, a dropped write, a reset, or the completion of NOP. -/
theorem step_overrun_cases (h : step s = .next t) :
    t.regs.overrun = s.regs.overrun ∨
    ((s.engine.phase = .busy ∧ 0 < s.env.delay ∧
      ∃ a v rest, s.env.host = .bus (.write a v) :: rest) ∧ t.regs.overrun = true) ∨
    (((s.engine.phase = .idle ∨ 0 < s.env.delay) ∧
      ∃ during rest, s.env.host = .reset during :: rest) ∧ t.regs.overrun = false) ∨
    ((s.engine.phase = .busy ∧ s.env.delay = 0 ∧ decode s.engine.cur = .instr .nop) ∧
      t.regs.overrun = false) := by
  obtain ⟨hp, hd, heq⟩ | ⟨hp, heq⟩ | ⟨d, hp, hd, heq⟩ := step_cases s
  · obtain hsame | ⟨hdec, hclear⟩ := engineStep_overrun_cases (heq ▸ h)
    · exact .inl hsame
    · exact .inr (.inr (.inr ⟨⟨hp, hd, hdec⟩, hclear⟩))
  · obtain hsame | ⟨hbusy, -, -⟩ | ⟨hreset, hclear⟩ := hostStep_overrun_cases (heq ▸ h)
    · exact .inl hsame
    · simp [hp] at hbusy
    · exact .inr (.inr (.inl ⟨⟨.inl hp, hreset⟩, hclear⟩))
  · have hpos : 0 < s.env.delay := by omega
    obtain hsame | ⟨-, hwrite, hset⟩ | ⟨hreset, hclear⟩ := hostStep_overrun_cases (heq ▸ h)
    · exact .inl hsame
    · exact .inr (.inl ⟨⟨hp, hpos, hwrite⟩, hset⟩)
    · exact .inr (.inr (.inl ⟨⟨.inr hpos, hreset⟩, hclear⟩))

theorem step_dropped_write_overrun {a : Addr} {v : Word} {rest : List HostOp}
    (hp : s.engine.phase = .busy) (hd : 0 < s.env.delay)
    (hh : s.env.host = .bus (.write a v) :: rest) :
    ∃ t, step s = .next t ∧ t.regs.overrun = true := by
  obtain ⟨d, hdelay⟩ := Nat.exists_eq_succ_of_ne_zero hd.ne'
  rw [step_of_waiting hp hdelay, hostStep_of_bus (s := { s with env.delay := d }) hh]
  exact ⟨_, rfl, busWrite_overrun_of_busy a v hp⟩

theorem step_nop_overrun (hp : s.engine.phase = .busy) (hd : s.env.delay = 0)
    (hdec : decode s.engine.cur = .instr .nop) :
    ∃ t, step s = .next t ∧ t.regs.overrun = false := by
  rw [step_of_completion hp hd, engineStep_of_instr hdec]
  exact ⟨_, rfl, rfl⟩

/-- Settles O48: the moves that set and clear `OVERRUN` are the ones `step_overrun_cases` lists. -/
theorem overrunIsSticky : Obligations.OverrunIsSticky := by
  refine ⟨fun s t h => ⟨fun hs ht => ?_, fun hs ht => ?_⟩,
    fun s a v rest hp hd hh => step_dropped_write_overrun hp hd hh,
    fun s hp hd hdec => step_nop_overrun hp hd hdec, fun s => rfl⟩
  · obtain hsame | ⟨hset, -⟩ | ⟨-, hclear⟩ | ⟨-, hclear⟩ := step_overrun_cases h
    · simp [hsame, hs] at ht
    · exact hset
    · simp [hclear] at ht
    · simp [hclear] at ht
  · obtain hsame | ⟨-, hset⟩ | ⟨hreset, -⟩ | ⟨hnop, -⟩ := step_overrun_cases h
    · simp [hsame, hs] at ht
    · simp [hset] at ht
    · exact .inl hreset
    · exact .inr hnop

end Sys2Proof.Machine
end

section
/-! The register bus (R43, R65, R66): the register map and its inverse, a write to each kind of
register, and what a read of any address returns after it. -/

namespace Sys2Proof.Machine

variable {s : State} {r : Reg} {a : Addr} {v : Word}

/-! ### The register map (R43) -/

@[simp] theorem regAt_regAddr (r : Reg) : regAt (regAddr r) = some r := by
  cases r with
  | key i | nonce i | dataIn i | dataOut i | state i | ks i => revert i; decide
  | _ => rfl

theorem arrayIndex_eq_some_iff {base n : Nat} {i : Fin n} :
    arrayIndex base n a = some i ↔ a.toNat = base + i := by
  have hi := i.isLt
  simp only [arrayIndex, Option.dite_none_right_eq_some, Option.some.injEq, Fin.ext_iff]
  constructor
  · rintro ⟨hmem, hsub⟩; omega
  · intro ha; exact ⟨by omega, by omega⟩

theorem ofNat_add_ofNat_eq {base i : Nat} (ha : a.toNat = base + i) :
    BitVec.ofNat 8 base + BitVec.ofNat 8 i = a := by
  rw [← BitVec.ofNat_add, ← ha, BitVec.ofNat_toNat, BitVec.setWidth_eq]

/-- No address but its own names a register. -/
theorem regAddr_of_regAt (h : regAt a = some r) : regAddr r = a := by
  unfold regAt at h
  split_ifs at h with h0 h1 h2 h3 h4 h5
  · cases h; exact h0.symm
  · cases h; exact h1.symm
  · cases h; exact h2.symm
  · cases h; exact h3.symm
  · cases h; exact h4.symm
  · cases h; exact h5.symm
  · simp only [Option.orElse_eq_orElse, Option.orElse_eq_or, Option.or_eq_some_iff,
      Option.map_eq_some_iff, arrayIndex_eq_some_iff] at h
    obtain ⟨i, ha, rfl⟩ | ⟨-, ⟨i, ha, rfl⟩ | ⟨-, ⟨i, ha, rfl⟩ | ⟨-, ⟨i, ha, rfl⟩ |
      ⟨-, ⟨i, ha, rfl⟩ | ⟨-, i, ha, rfl⟩⟩⟩⟩⟩ := h <;> exact ofNat_add_ofNat_eq ha

/-! ### What a bus write does, by the kind of its address (R65, R241) -/

theorem busWrite_of_busy (a : Addr) (v : Word) (h : s.engine.phase = .busy) :
    busWrite a v s = dropWrite s := by
  simp [busWrite, h]

theorem busWrite_unmapped (v : Word) (h : s.engine.phase = .idle) (ha : regAt a = none) :
    busWrite a v s = s := by
  simp [busWrite, h, ha]

theorem busWrite_of_regAt (v : Word) (h : s.engine.phase = .idle) (ha : regAt a = some r) :
    busWrite a v s = writeReg r v s := by
  simp [busWrite, h, ha]

theorem busWrite_regAddr (r : Reg) (v : Word) (h : s.engine.phase = .idle) :
    busWrite (regAddr r) v s = writeReg r v s :=
  busWrite_of_regAt v h (regAt_regAddr r)

/-! ### A write to a register other than `CMD` -/

theorem writeReg_of_readOnly (h : regAccess r = .readOnly) : writeReg r v s = s := by
  cases r with
  | status | activeConfig | dataOut | state | ks => rfl
  | _ => cases h

theorem ne_cmd_of_readWrite (h : regAccess r = .readWrite) : r ≠ .cmd := by
  rintro rfl; cases h

theorem writeReg_engine (hr : r ≠ .cmd) : (writeReg r v s).engine = s.engine := by
  cases r with
  | cmd => exact absurd rfl hr
  | _ => rfl

theorem writeReg_env (hr : r ≠ .cmd) : (writeReg r v s).env = s.env := by
  cases r with
  | cmd => exact absurd rfl hr
  | _ => rfl

theorem writeReg_writeReg (hr : r ≠ .cmd) :
    writeReg r v (writeReg r v s) = writeReg r v s := by
  cases r with
  | cmd => exact absurd rfl hr
  | key i | nonce i | dataIn i => simp [writeReg]
  | _ => rfl

/-! ### What a register reads after a write -/

theorem keyLenBit_configOfWord (v : Word) :
    keyLenBit (configOfWord v).keylen = BitVec.ofBool (v.getLsbD 0) := by
  unfold configOfWord
  cases v.getLsbD 0 <;> rfl

/-- `CONFIG` reads the fields that a write stored and 0 elsewhere (R26). -/
theorem configWord_configOfWord (v : Word) :
    configWord (configOfWord v) = v &&& 0x0000FF01 := by
  rw [configWord, keyLenBit_configOfWord]
  refine BitVec.eq_of_getLsbD_eq fun i hi => ?_
  rw [BitVec.getLsbD_append, BitVec.getLsbD_append, BitVec.getLsbD_append, BitVec.getLsbD_and]
  interval_cases i <;> simp [configOfWord]

theorem readReg_writeReg_same (h : regAccess r = .readWrite) :
    readReg r (writeReg r v s) = if r = .config then v &&& 0x0000FF01 else v := by
  cases r with
  | config => exact configWord_configOfWord v
  | ctrInLo | ctrInHi => rfl
  | key i | nonce i | dataIn i => simp [readReg, writeReg]
  | _ => cases h

theorem readReg_writeReg_other {q : Reg} (hr : r ≠ .cmd) (hq : q ≠ r) :
    readReg q (writeReg r v s) = readReg q s := by
  cases r with
  | cmd => exact absurd rfl hr
  | config => cases q with
    | config => exact absurd rfl hq
    | _ => rfl
  | ctrInLo => cases q with
    | ctrInLo => exact absurd rfl hq
    | _ => rfl
  | ctrInHi => cases q with
    | ctrInHi => exact absurd rfl hq
    | _ => rfl
  | key i => cases q with
    | key j =>
      exact Vector.getElem_set_ne i.isLt j.isLt fun hij =>
        hq (congrArg Reg.key (Fin.ext hij).symm)
    | _ => rfl
  | nonce i => cases q with
    | nonce j =>
      exact Vector.getElem_set_ne i.isLt j.isLt fun hij =>
        hq (congrArg Reg.nonce (Fin.ext hij).symm)
    | _ => rfl
  | dataIn i => cases q with
    | dataIn j =>
      exact Vector.getElem_set_ne i.isLt j.isLt fun hij =>
        hq (congrArg Reg.dataIn (Fin.ext hij).symm)
    | _ => rfl
  | _ => rfl

/-- Every value read is a function of the registers and the engine. -/
theorem readReg_congr {t : State} (q : Reg) (hregs : t.regs = s.regs) (heng : t.engine = s.engine) :
    readReg q t = readReg q s := by
  cases q <;> simp [readReg, statusWord, ready, hregs, heng]

/-! ### Reads of the bus -/

theorem busRead_regAddr (r : Reg) (h : s.engine.phase = .idle) :
    busRead (regAddr r) s = readReg r s :=
  busRead_of_regAt (regAt_regAddr r) h

theorem busRead_cmd (s : State) : busRead (regAddr .cmd) s = 0 :=
  busRead_of_not_isResult (regAt_regAddr .cmd) rfl

theorem busRead_writeReg_same (hi : s.engine.phase = .idle) (h : regAccess r = .readWrite) :
    busRead (regAddr r) (writeReg r v s) = if r = .config then v &&& 0x0000FF01 else v := by
  have hi' : (writeReg r v s).engine.phase = .idle := by
    rw [writeReg_engine (ne_cmd_of_readWrite h), hi]
  rw [busRead_regAddr r hi', readReg_writeReg_same h]

theorem busRead_writeReg_other (hi : s.engine.phase = .idle) (hr : r ≠ .cmd)
    (ha : a ≠ regAddr r) : busRead a (writeReg r v s) = busRead a s := by
  have hi' : (writeReg r v s).engine.phase = .idle := by rw [writeReg_engine hr, hi]
  cases hq : regAt a with
  | none => rw [busRead_unmapped hq, busRead_unmapped hq]
  | some q =>
    have hqr : q ≠ r := by rintro rfl; exact ha (regAddr_of_regAt hq).symm
    rw [busRead_of_regAt hq hi', busRead_of_regAt hq hi, readReg_writeReg_other hr hqr]

theorem busRead_recordRead (hi : s.engine.phase = .idle) :
    busRead a (recordRead v s) = busRead a s := by
  cases hq : regAt a with
  | none => rw [busRead_unmapped hq, busRead_unmapped hq]
  | some q =>
    rw [busRead_of_regAt hq hi, busRead_of_regAt (s := recordRead v s) hq hi,
      readReg_congr q (recordRead_regs s v) (recordRead_engine s v)]

/-- Writing any address but that of `CMD` is idempotent, a dropped write included (R66, R241). -/
theorem busWrite_busWrite (ha : a ≠ regAddr .cmd) :
    busWrite a v (busWrite a v s) = busWrite a v s := by
  obtain ⟨hp, h⟩ | ⟨-, -, h⟩ | ⟨q, hp, hq, h⟩ := busWrite_cases a v s
  · rw [h, busWrite_of_busy (s := dropWrite s) a v hp]; rfl
  · rw [h, h]
  · have hcmd : q ≠ .cmd := by rintro rfl; exact ha (regAddr_of_regAt hq).symm
    have hp' : (writeReg q v s).engine.phase = .idle := by rw [writeReg_engine hcmd, hp]
    rw [h, busWrite_of_regAt v hp' hq, writeReg_writeReg hcmd]

/-- Settles O40: each clause is the law of its kind of address, read and written through the map. -/
theorem readsAndWritesByAddressKind : Obligations.ReadsAndWritesByAddressKind := by
  refine ⟨fun s r v hi hrw => ?readWrite, fun s r hi => ?contents, fun s r v hi hro => ?readOnly,
    fun s a v hi ha => busWrite_unmapped v hi ha, fun s a ha => ?readsZero,
    fun s c hi => busWrite_regAddr .cmd c hi, fun s a v hp => busWrite_of_busy a v hp⟩
  case readWrite =>
    have hcmd := ne_cmd_of_readWrite hrw
    rw [busWrite_regAddr r v hi]
    exact ⟨busRead_writeReg_same hi hrw, fun a ha => busRead_writeReg_other hi hcmd ha,
      writeReg_engine hcmd, writeReg_env hcmd⟩
  case contents => rw [busRead_regAddr r hi]; cases r <;> rfl
  case readOnly => rw [busWrite_regAddr r v hi, writeReg_of_readOnly hro]
  case readsZero =>
    obtain hnone | rfl := ha
    · exact busRead_unmapped hnone
    · exact busRead_cmd s

/-- Settles O41: a read only records its value, and a write is idempotent away from `CMD`. -/
theorem readsHaveNoSideEffects : Obligations.ReadsHaveNoSideEffects :=
  ⟨fun _ _ => ⟨rfl, rfl, rfl, fun hi _ => busRead_recordRead hi⟩, fun _ _ _ => busWrite_busWrite⟩

end Sys2Proof.Machine
end

section
/-! The decoder of a command word: a word is its two fields, the map reads an opcode as a command
exactly when it is that command's, and the seven opcodes are the bytes below 7. -/

namespace Sys2Proof

/-! ### The fields of a command word (R80) -/

@[simp] theorem opcodeField_encode (i : Instr) : opcodeField (encode i) = opcodeOf i := by
  cases i <;> rfl

@[simp] theorem rsvField_encode (i : Instr) : rsvField (encode i) = 0 := by
  cases i <;> rfl

/-- The two fields are the whole word, as a number. -/
theorem toNat_eq_fields (c : Word) :
    c.toNat = (rsvField c).toNat * 2 ^ 8 + (opcodeField c).toNat := by
  simp only [rsvField, opcodeField, BitVec.extractLsb'_toNat, Nat.shiftRight_eq_div_pow]
  omega

theorem eq_of_fields {c d : Word} (hrsv : rsvField c = rsvField d)
    (hop : opcodeField c = opcodeField d) : c = d := by
  apply BitVec.eq_of_toNat_eq
  rw [toNat_eq_fields c, toNat_eq_fields d, hrsv, hop]

theorem eq_encode_iff {c : Word} {i : Instr} :
    c = encode i ↔ rsvField c = 0 ∧ opcodeField c = opcodeOf i := by
  constructor
  · rintro rfl
    exact ⟨rsvField_encode i, opcodeField_encode i⟩
  · rintro ⟨hrsv, hop⟩
    exact eq_of_fields (by rw [hrsv, rsvField_encode]) (by rw [hop, opcodeField_encode])

/-! ### The opcode map (R82) -/

theorem decodeOpcode_opcodeOf (i : Instr) : decodeOpcode (opcodeOf i) = .instr i := by
  cases i <;> rfl

/-- What the map makes of a byte: the command whose opcode it is, or it is 7 or more (R83). -/
theorem decodeOpcode_cases (o : BitVec 8) :
    (∃ i, o = opcodeOf i ∧ decodeOpcode o = .instr i) ∨
    (7 ≤ o.toNat ∧ decodeOpcode o = .reservedOpcode) := by
  unfold decodeOpcode
  split_ifs with h0 h1 h2 h3 h4 h5 h6
  · exact .inl ⟨.nop, h0, rfl⟩
  · exact .inl ⟨.init, h1, rfl⟩
  · exact .inl ⟨.next, h2, rfl⟩
  · exact .inl ⟨.xor, h3, rfl⟩
  · exact .inl ⟨.crypt, h4, rfl⟩
  · exact .inl ⟨.wrctr, h5, rfl⟩
  · exact .inl ⟨.qrtest, h6, rfl⟩
  · exact .inr ⟨by bv_omega, rfl⟩

theorem decodeOpcode_eq_instr_iff {o : BitVec 8} {i : Instr} :
    decodeOpcode o = .instr i ↔ o = opcodeOf i := by
  constructor
  · intro h
    obtain ⟨j, rfl, hj⟩ | ⟨-, hres⟩ := decodeOpcode_cases o
    · cases hj.symm.trans h; rfl
    · cases hres.symm.trans h
  · rintro rfl
    exact decodeOpcode_opcodeOf i

theorem opcodeOf_toNat_lt (i : Instr) : (opcodeOf i).toNat < 7 := by
  cases i <;> decide

theorem exists_eq_opcodeOf_iff {o : BitVec 8} : (∃ i, o = opcodeOf i) ↔ o.toNat < 7 := by
  constructor
  · rintro ⟨i, rfl⟩
    exact opcodeOf_toNat_lt i
  · intro hlt
    obtain ⟨i, hi, -⟩ | ⟨hge, -⟩ := decodeOpcode_cases o
    · exact ⟨i, hi⟩
    · exact absurd hlt hge.not_gt

/-! ### The decoder (R81, R87) -/

theorem decode_eq_instr_iff {c : Word} {i : Instr} : decode c = .instr i ↔ c = encode i := by
  rw [eq_encode_iff, ← decodeOpcode_eq_instr_iff, decode]
  split_ifs with hrsv
  · exact (and_iff_right hrsv).symm
  · exact iff_of_false nofun fun h => hrsv h.1

theorem exists_decode_eq_instr_iff {c : Word} : (∃ i, decode c = .instr i) ↔ c.toNat < 7 := by
  have hfields : rsvField c = 0 ∧ (opcodeField c).toNat < 7 ↔ c.toNat < 7 := by
    have hc := toNat_eq_fields c
    have hrsv : rsvField c = 0 ↔ (rsvField c).toNat = 0 := BitVec.toNat_inj.symm
    rw [hrsv]
    omega
  simp only [decode_eq_instr_iff, eq_encode_iff, exists_and_left, exists_eq_opcodeOf_iff, hfields]

/-- Settles O32: a word decodes to a command exactly when its fields are those of the command's word,
and the seven words are 0 to 6. -/
theorem decodeReadsExactlyTheMap : Obligations.DecodeReadsExactlyTheMap :=
  ⟨fun _ _ => decode_eq_instr_iff, fun _ => exists_decode_eq_instr_iff,
    rfl, rfl, rfl, rfl, rfl, rfl, rfl⟩

end Sys2Proof
end

section
/-! NOP and INIT (R100 to R108): what NOP makes of `STATUS`, and the words of the state register that
INIT builds. -/

namespace Sys2Proof.Machine

/-! ### NOP (R108) -/

theorem execNop_eq (s : State) : exec .nop s = .next
    { s with regs.overrun := false, regs.err := .ok, engine.phase := .idle } := rfl

/-- NOP keeps the three flags in bits 3:1 of `STATUS`, sets `READY` and clears the rest. -/
theorem statusWord_after_nop (s : State) :
    statusWord (complete .ok { s with regs.overrun := false }) = statusWord s &&& 0xE ||| 1 := by
  simp only [statusWord, ready, complete_regs, complete_engine]
  refine BitVec.eq_of_getLsbD_eq fun i hi => ?_
  simp only [BitVec.getLsbD_or, BitVec.getLsbD_and, BitVec.getLsbD_append]
  interval_cases i <;> simp [errBits]

/-- Settles O5: `exec_overrun` covers the other commands, and the example is the new `STATUS` as a
function of the old. -/
theorem nopClearsOverrun : Obligations.NopClearsOverrun := by
  refine ⟨rfl, execNop_eq, fun i s t hi h => exec_overrun hi h,
    fun s hp => busWrite_of_busy _ _ hp, fun s hs => ⟨_, rfl, ?_⟩⟩
  rw [statusWord_after_nop, hs]
  rfl

/-! ### The words of the state register INIT builds (R101, R102) -/

theorem constantOf_getElem (k : KeyLen) (i : Nat) (hi : i < 4) :
    (constantOf k)[i] = if k = .k256 then sigma[i] else tau[i] := by
  cases k <;> rfl

theorem keyWords_low (k : KeyLen) (key : Vector Word 8) (i : Nat) (hi : i < 4) :
    (keyWords k key)[i] = key[i] := by
  cases k with
  | k256 => rfl
  | k128 => interval_cases i <;> rfl

theorem keyWords_high (k : KeyLen) (key : Vector Word 8) (i : Nat) (hi : i < 4) :
    (keyWords k key)[4 + i] = if k = .k256 then key[4 + i] else key[i] := by
  cases k with
  | k256 => rfl
  | k128 => interval_cases i <;> rfl

theorem initBlock_keyWords_low (k : KeyLen) (key : Vector Word 8) (nonce : Vector Word 2) (i : Nat)
    (hi : i < 4) : (initBlock k key nonce)[4 + i] = (keyWords k key)[i] := by
  interval_cases i <;> rfl

theorem initBlock_keyWords_high (k : KeyLen) (key : Vector Word 8) (nonce : Vector Word 2) (i : Nat)
    (hi : i < 4) : (initBlock k key nonce)[8 + i] = (keyWords k key)[4 + i] := by
  interval_cases i <;> rfl

theorem zeroBlock_getElem (i : Nat) (hi : i < 16) : zeroBlock[i] = 0 :=
  Vector.getElem_replicate hi

/-- Settles O6: with a legal round count INIT completes with `initRegs`, whose state register is
`initBlock` of the staged operands. -/
theorem initBuildsState : Obligations.InitBuildsState := by
  refine ⟨rfl, rfl, rfl, fun s hlegal =>
    ⟨_, execInit_of_legal hlegal, fun i hi => ?constant, fun i hi => ?keyLow, fun i hi => ?keyHigh,
      rfl, rfl, rfl, rfl, fun i hi => zeroBlock_getElem i hi, rfl, rfl, rfl⟩⟩
  case constant => exact (initBlock_constant _ _ _ i hi).trans (constantOf_getElem _ i hi)
  case keyLow => exact (initBlock_keyWords_low _ _ _ i hi).trans (keyWords_low _ _ i hi)
  case keyHigh => exact (initBlock_keyWords_high _ _ _ i hi).trans (keyWords_high _ _ i hi)

end Sys2Proof.Machine
end

section
/-! The quarter-round (R120), its write-back to four words of an array (R122) and QRTEST (R124). -/

namespace Sys2Proof.Machine

/-- Settles O23: with each intermediate value replaced by its definition the two sides are the same
twelve operations, the rotations of R11 written by their library name. -/
theorem quarterRoundSequence : Obligations.QuarterRoundSequence := by
  rintro a b c d _ _ _ _ _ _ _ _ rfl rfl rfl rfl rfl rfl rfl rfl
  simp [qr, rotl32_eq_rotateLeft]

/-! ### The words of an array after `QRW` (R122) -/

section
variable (w : Block) {l : Lane}

theorem qrw_getElem_id : (qrw w l)[l.id] = (qr (laneIn w l)).d := by
  simp [qrw]

theorem qrw_getElem_ic (hcd : l.ic ≠ l.id) : (qrw w l)[l.ic] = (qr (laneIn w l)).c := by
  simp [qrw, Fin.val_inj, hcd.symm]

theorem qrw_getElem_ib (hbc : l.ib ≠ l.ic) (hbd : l.ib ≠ l.id) :
    (qrw w l)[l.ib] = (qr (laneIn w l)).b := by
  simp [qrw, Fin.val_inj, hbc.symm, hbd.symm]

theorem qrw_getElem_ia (hab : l.ia ≠ l.ib) (hac : l.ia ≠ l.ic) (had : l.ia ≠ l.id) :
    (qrw w l)[l.ia] = (qr (laneIn w l)).a := by
  simp [qrw, Fin.val_inj, hab.symm, hac.symm, had.symm]

theorem qrw_getElem_other {i : Fin 16} (ha : i ≠ l.ia) (hb : i ≠ l.ib) (hc : i ≠ l.ic)
    (hd : i ≠ l.id) : (qrw w l)[i] = w[i] := by
  simp [qrw, Fin.val_inj, ha.symm, hb.symm, hc.symm, hd.symm]

end

/-- Settles O24: the word at each index of the lane is the last one written there, no later write
hitting the same index. -/
theorem qrwWritesFourWords : Obligations.QrwWritesFourWords := by
  intro w l hab hac had hbc hbd hcd
  constructor
  · rw [qrw_getElem_ia w hab hac had, qrw_getElem_ib w hbc hbd, qrw_getElem_ic w hcd,
      qrw_getElem_id]
    rfl
  · intro i ha hb hc hd
    exact qrw_getElem_other w ha hb hc hd

/-! ### QRTEST (R124) -/

/-- The four words QRTEST reads. -/
def qrtestIn (s : State) : Quad :=
  ⟨s.regs.dataIn[0], s.regs.dataIn[1], s.regs.dataIn[2], s.regs.dataIn[3]⟩

/-- Four words in the first four places of a block, the write QRTEST makes to `DATA_OUT`. -/
def withFirstQuad (w : Block) (q : Quad) : Block :=
  (((w.set 0 q.a).set 1 q.b).set 2 q.c).set 3 q.d

theorem withFirstQuad_first (w : Block) (q : Quad) :
    (⟨(withFirstQuad w q)[0], (withFirstQuad w q)[1], (withFirstQuad w q)[2],
      (withFirstQuad w q)[3]⟩ : Quad) = q := by
  simp [withFirstQuad]

theorem withFirstQuad_getElem_of_four_le (w : Block) (q : Quad) (i : Nat) (hi : i < 16)
    (h4 : 4 ≤ i) : (withFirstQuad w q)[i] = w[i] := by
  have h : 0 ≠ i ∧ 1 ≠ i ∧ 2 ≠ i ∧ 3 ≠ i := by omega
  simp [withFirstQuad, h]

theorem execQrtest_eq (s : State) : exec .qrtest s = .next
    (complete .ok { s with regs.dataOut := withFirstQuad s.regs.dataOut (qr (qrtestIn s)) }) := rfl

/-- Settles O21: the answer is `execQrtest_eq`, and the two sample quarter-rounds are evaluated. -/
theorem qrtestAppliesOneQuarterRound : Obligations.QrtestAppliesOneQuarterRound := by
  refine ⟨rfl, fun s => ⟨_, execQrtest_eq s, ?written, fun i hi h4 => ?kept, rfl, rfl, rfl⟩,
    by decide, by decide⟩
  case written => exact (withFirstQuad_first _ _).symm
  case kept => exact withFirstQuad_getElem_of_four_le _ _ i hi h4

end Sys2Proof.Machine
end

section
/-! The passes (R140, R141, R143): lanes that share no index do not disturb each other, so each
reads what stood before the pass, and their order is irrelevant. -/

namespace Sys2Proof.Machine

/-- The index tuple of a lane, the four words a quarter-round touches (R122). -/
def Lane.indices (l : Lane) : List (Fin 16) := [l.ia, l.ib, l.ic, l.id]

section
variable {l : Lane} {lanes : List Lane}

/-! ### One lane (R122) -/

theorem qrw_getElem_of_not_mem (w : Block) {i : Fin 16} (h : i ∉ l.indices) :
    (qrw w l)[i] = w[i] := by
  simp only [Lane.indices, List.mem_cons, List.not_mem_nil, or_false, not_or] at h
  obtain ⟨ha, hb, hc, hd⟩ := h
  exact qrw_getElem_other w ha hb hc hd

theorem laneIn_qrw (w : Block) (hl : l.indices.Nodup) : laneIn (qrw w l) l = qr (laneIn w l) := by
  simp only [Lane.indices, List.nodup_cons, List.mem_cons, List.not_mem_nil, or_false, not_or] at hl
  obtain ⟨⟨hab, hac, had⟩, ⟨hbc, hbd⟩, hcd, -⟩ := hl
  exact (qrwWritesFourWords w l hab hac had hbc hbd hcd).1

theorem laneIn_eq_iff {u w : Block} :
    laneIn u l = laneIn w l ↔ ∀ i ∈ l.indices, u[i] = w[i] := by
  simp [laneIn, Lane.indices]

/-! ### Lanes that share no index -/

theorem runLanes_getElem_of_not_mem (w : Block) {i : Fin 16}
    (h : i ∉ lanes.flatMap Lane.indices) : (runLanes lanes w)[i] = w[i] := by
  induction lanes generalizing w with
  | nil => rfl
  | cons m ms ih =>
    rw [List.flatMap_cons, List.mem_append, not_or] at h
    exact (ih (qrw w m) h.2).trans (qrw_getElem_of_not_mem w h.1)

/-- A lane of a pass computes the quarter-round of the words before the pass: the lanes before it
have not touched its words, and those after it do not touch its results. -/
theorem laneIn_runLanes (w : Block) (hnd : (lanes.flatMap Lane.indices).Nodup) (hl : l ∈ lanes) :
    laneIn (runLanes lanes w) l = qr (laneIn w l) := by
  induction lanes generalizing w with
  | nil => cases hl
  | cons m ms ih =>
    rw [List.flatMap_cons, List.nodup_append'] at hnd
    obtain ⟨hm, hms, hdisj⟩ := hnd
    obtain rfl | hl := List.mem_cons.1 hl
    · have hafter : laneIn (runLanes ms (qrw w l)) l = laneIn (qrw w l) l :=
        laneIn_eq_iff.2 fun i hi => runLanes_getElem_of_not_mem _ (hdisj hi)
      exact hafter.trans (laneIn_qrw w hm)
    · have hbefore : laneIn (qrw w m) l = laneIn w l :=
        laneIn_eq_iff.2 fun i hi => qrw_getElem_of_not_mem w fun him =>
          hdisj him (List.mem_flatMap.2 ⟨l, hl, hi⟩)
      exact (ih (qrw w m) hms hl).trans (congrArg qr hbefore)

/-- A pass fixes each word of the array after it in terms that do not mention the lanes' order. -/
theorem runLanes_eq_of_perm (w : Block) {lanes' : List Lane} (hp : lanes'.Perm lanes)
    (hnd : (lanes.flatMap Lane.indices).Nodup) : runLanes lanes' w = runLanes lanes w := by
  have hp' := hp.flatMap_right Lane.indices
  refine Vector.ext fun k hk => ?_
  change (runLanes lanes' w)[(⟨k, hk⟩ : Fin 16)] = (runLanes lanes w)[(⟨k, hk⟩ : Fin 16)]
  by_cases hmem : (⟨k, hk⟩ : Fin 16) ∈ lanes.flatMap Lane.indices
  · obtain ⟨l, hl, hi⟩ := List.mem_flatMap.1 hmem
    have hsame : laneIn (runLanes lanes' w) l = laneIn (runLanes lanes w) l := by
      rw [laneIn_runLanes w (hp'.nodup_iff.2 hnd) (hp.mem_iff.2 hl), laneIn_runLanes w hnd hl]
    exact laneIn_eq_iff.1 hsame _ hi
  · rw [runLanes_getElem_of_not_mem w hmem,
      runLanes_getElem_of_not_mem w (mt hp'.mem_iff.1 hmem)]

/-! ### The two passes -/

theorem columnLanes_cover : (columnLanes.flatMap Lane.indices).Perm (List.finRange 16) := by decide

theorem diagonalLanes_cover : (diagonalLanes.flatMap Lane.indices).Perm (List.finRange 16) := by
  decide

theorem columnLanes_nodup : (columnLanes.flatMap Lane.indices).Nodup :=
  columnLanes_cover.nodup_iff.2 (List.nodup_finRange 16)

theorem diagonalLanes_nodup : (diagonalLanes.flatMap Lane.indices).Nodup :=
  diagonalLanes_cover.nodup_iff.2 (List.nodup_finRange 16)

theorem laneIn_columnPass (w : Block) (hl : l ∈ columnLanes) :
    laneIn (columnPass w) l = qr (laneIn w l) :=
  laneIn_runLanes w columnLanes_nodup hl

theorem laneIn_diagonalPass (w : Block) (hl : l ∈ diagonalLanes) :
    laneIn (diagonalPass w) l = qr (laneIn w l) :=
  laneIn_runLanes w diagonalLanes_nodup hl

end

/-- The k-th column of the 4x4 array (R140). -/
def columnLane (k : Fin 4) : Lane :=
  ⟨⟨k, by omega⟩, ⟨4 + k, by omega⟩, ⟨8 + k, by omega⟩, ⟨12 + k, by omega⟩⟩

/-- The k-th diagonal of the 4x4 array (R141). -/
def diagonalLane (k : Fin 4) : Lane :=
  ⟨⟨k, by omega⟩, ⟨4 + (k + 1) % 4, by omega⟩, ⟨8 + (k + 2) % 4, by omega⟩,
    ⟨12 + (k + 3) % 4, by omega⟩⟩

theorem laneIn_columnLane (w : Block) (k : Fin 4) : laneIn w (columnLane k) =
    ⟨w[k.val], w[4 + k.val], w[8 + k.val], w[12 + k.val]⟩ := rfl

theorem laneIn_diagonalLane (w : Block) (k : Fin 4) : laneIn w (diagonalLane k) =
    ⟨w[k.val], w[4 + (k.val + 1) % 4], w[8 + (k.val + 2) % 4], w[12 + (k.val + 3) % 4]⟩ := rfl

theorem columnLane_mem : ∀ k, columnLane k ∈ columnLanes := by decide

theorem diagonalLane_mem : ∀ k, diagonalLane k ∈ diagonalLanes := by decide

/-- Settles O25: the index sets of the statement are lanes of the passes, and a lane of a pass
computes the quarter-round of its words. -/
theorem passesByColumnAndDiagonal : Obligations.PassesByColumnAndDiagonal := by
  intro w k hk
  have hcolumn := laneIn_columnPass w (columnLane_mem ⟨k, hk⟩)
  have hdiagonal := laneIn_diagonalPass w (diagonalLane_mem ⟨k, hk⟩)
  rw [laneIn_columnLane, laneIn_columnLane] at hcolumn
  rw [laneIn_diagonalLane, laneIn_diagonalLane] at hdiagonal
  exact ⟨hcolumn, hdiagonal⟩

/-- Settles O26: the tuples of each pass cover the indices once, so that its lanes share none. -/
theorem laneOrderIsIrrelevant : Obligations.LaneOrderIsIrrelevant :=
  ⟨columnLanes_cover, diagonalLanes_cover,
    fun w _ => ⟨laneIn_columnPass w, laneIn_diagonalPass w⟩,
    fun _ w => ⟨fun hp => runLanes_eq_of_perm w hp columnLanes_nodup,
      fun hp => runLanes_eq_of_perm w hp diagonalLanes_nodup⟩⟩

end Sys2Proof.Machine
end

section
/-! The byte views of words and blocks (R14, R147). -/

namespace Sys2Proof.Machine

/-! ### A block as its bytes -/

/-- Where every element maps to n items, item `n * i + j` of the whole is item j of element i. -/
theorem getElem?_flatMap_of_length_eq {α β : Type} {f : α → List β} {n : Nat}
    (hf : ∀ a, (f a).length = n) (l : List α) (i : Nat) {j : Nat} (hj : j < n) :
    (l.flatMap f)[n * i + j]? = l[i]?.bind fun a => (f a)[j]? := by
  induction l generalizing i with
  | nil => simp
  | cons a l ih =>
    rw [List.flatMap_cons]
    cases i with
    | zero => simp [List.getElem?_append_left, hf, hj]
    | succ i =>
      have hskip : n * (i + 1) + j = (f a).length + (n * i + j) := by rw [hf, Nat.mul_succ]; omega
      rw [hskip, List.getElem?_append_right (Nat.le_add_right _ _), Nat.add_sub_cancel_left, ih,
        List.getElem?_cons_succ]

@[simp] theorem leBytes_length (w : Word) : (leBytes w).length = 4 := rfl

theorem leBytes_getElem? (w : Word) {j : Nat} (hj : j < 4) :
    (leBytes w)[j]? = some (byteOf w j) := by
  interval_cases j <;> rfl

@[simp] theorem ser_length (x : Block) : (ser x).length = 64 := by
  simp [ser, List.length_flatMap]

theorem ser_getElem? (x : Block) {i j : Nat} (hi : i < 16) (hj : j < 4) :
    (ser x)[4 * i + j]? = some (byteOf x[i] j) := by
  rw [ser, getElem?_flatMap_of_length_eq leBytes_length _ i hj]
  simp [hi, leBytes_getElem? _ hj]

/-! ### A word as its four bytes -/

/-- Bit i of the word is bit `i % 8` of byte `i / 8`. -/
theorem wordOfBytes_getLsbD (b0 b1 b2 b3 : Byte) {i : Nat} (hi : i < 32) :
    (wordOfBytes b0 b1 b2 b3).getLsbD i = ([b0, b1, b2, b3].getD (i / 8) 0).getLsbD (i % 8) := by
  simp only [wordOfBytes, BitVec.getLsbD_or, BitVec.getLsbD_shiftLeft, BitVec.getLsbD_setWidth]
  interval_cases i <;> simp

theorem byteOf_getLsbD (w : Word) (j : Nat) {i : Nat} (hi : i < 8) :
    (byteOf w j).getLsbD i = w.getLsbD (8 * j + i) := by
  simp [byteOf, hi]

theorem byteOf_wordOfBytes (b0 b1 b2 b3 : Byte) {j : Nat} (hj : j < 4) :
    byteOf (wordOfBytes b0 b1 b2 b3) j = [b0, b1, b2, b3].getD j 0 := by
  refine BitVec.eq_of_getLsbD_eq fun i hi => ?_
  have hbyte : (8 * j + i) / 8 = j := by omega
  have hbit : (8 * j + i) % 8 = i := by omega
  rw [byteOf_getLsbD _ _ hi, wordOfBytes_getLsbD _ _ _ _ (by omega), hbyte, hbit]

theorem leBytes_wordOfBytes (b0 b1 b2 b3 : Byte) :
    leBytes (wordOfBytes b0 b1 b2 b3) = [b0, b1, b2, b3] := by
  simp [leBytes, byteOf_wordOfBytes]

theorem wordOfBytes_byteOf (w : Word) :
    wordOfBytes (byteOf w 0) (byteOf w 1) (byteOf w 2) (byteOf w 3) = w := by
  refine BitVec.eq_of_getLsbD_eq fun i hi => ?_
  have hbyte : (leBytes w).getD (i / 8) 0 = byteOf w (i / 8) := by
    rw [List.getD_eq_getElem?_getD, leBytes_getElem? w (by omega), Option.getD_some]
  calc (wordOfBytes (byteOf w 0) (byteOf w 1) (byteOf w 2) (byteOf w 3)).getLsbD i
      _ = ((leBytes w).getD (i / 8) 0).getLsbD (i % 8) := wordOfBytes_getLsbD _ _ _ _ hi
      _ = w.getLsbD (8 * (i / 8) + i % 8) := by
        rw [hbyte, byteOf_getLsbD _ _ (Nat.mod_lt i (by decide))]
      _ = w.getLsbD i := by rw [Nat.div_add_mod]

/-- Settles O28: a byte of the view is read through the word it belongs to. -/
theorem serialiserIsLittleEndian : Obligations.SerialiserIsLittleEndian :=
  ⟨fun x => ⟨ser_length x, fun _ _ hi hj => ser_getElem? x hi hj⟩, wordOfBytes_byteOf,
    leBytes_wordOfBytes⟩

end Sys2Proof.Machine
end

section
/-! The block function (R148). -/

namespace Sys2Proof.Machine

/-- NEXT in a ready state puts the block of the state register and the round count into `KS`. -/
theorem execNext_ks_of_ready {s : State} (h : s.regs.initialized = true)
    (hx : s.regs.exhausted = false) :
    ∃ t, exec .next s = .next t ∧
      t.regs.ks = blockOf s.regs.st s.regs.activeConfig.rounds.toNat :=
  ⟨_, execNext_of_ready h hx, rfl⟩

/-- Settles O11: the block mentions the state register and the round count alone. -/
theorem blockDependsOnStateAlone : Obligations.BlockDependsOnStateAlone := by
  intro s₁ s₂ hst hrounds hi₁ hx₁ hi₂ hx₂
  obtain ⟨t₁, hstep₁, hks₁⟩ := execNext_ks_of_ready hi₁ hx₁
  obtain ⟨t₂, hstep₂, hks₂⟩ := execNext_ks_of_ready hi₂ hx₂
  have hks : t₁.regs.ks = t₂.regs.ks := by rw [hks₁, hks₂, hst, hrounds]
  exact ⟨t₁, t₂, hstep₁, hstep₂, hks₁, hks, congrArg ser hks⟩

end Sys2Proof.Machine
end

section
/-! The block counter and the commands that move it (R160 to R164): the increment as one on the
64-bit number, what NEXT and CRYPT share, the block of the zero key, and WRCTR. -/

namespace Sys2Proof.Machine

variable {s : State}

/-! ### The increment (R161) -/

theorem add_one_eq_zero_iff (lo : Word) : lo + 1 = 0 ↔ lo = 0xFFFFFFFF :=
  add_eq_zero_iff_eq_neg

theorem ctrInc_hi (lo hi : Word) :
    (ctrInc lo hi).hi = if lo = 0xFFFFFFFF then hi + 1 else hi := by
  simp only [ctrInc, add_one_eq_zero_iff]

theorem append_toNat (hi lo : Word) : (hi ++ lo).toNat = 2 ^ 32 * hi.toNat + lo.toNat := by
  rw [BitVec.toNat_append, Nat.shiftLeft_eq, Nat.mul_comm, Nat.two_pow_add_eq_or_of_lt lo.isLt]

/-- With the low word below its last value the sum stays within it; at the last value the low word
is 0 and the carry is one of the high word. -/
theorem ctrInc_append (lo hi : Word) :
    (ctrInc lo hi).hi ++ (ctrInc lo hi).lo = (hi ++ lo : BitVec 64) + 1 := by
  have hlo : (ctrInc lo hi).lo = lo + 1 := rfl
  apply BitVec.eq_of_toNat_eq
  rw [hlo, ctrInc_hi, BitVec.toNat_add, append_toNat, append_toNat]
  split
  case isTrue hlast => subst hlast; bv_omega
  case isFalse => bv_omega

theorem ctrInc_wrapped_iff_last (lo hi : Word) :
    (ctrInc lo hi).wrapped = true ↔ (hi ++ lo : BitVec 64).toNat = 2 ^ 64 - 1 :=
  calc (ctrInc lo hi).wrapped = true
      ↔ (ctrInc lo hi).lo = 0 ∧ (ctrInc lo hi).hi = 0 := ctrInc_wrapped_iff lo hi
    _ ↔ (ctrInc lo hi).hi ++ (ctrInc lo hi).lo = (0 : BitVec 64) := by
        simp only [← BitVec.toNat_inj, append_toNat]
        bv_omega
    _ ↔ (hi ++ lo : BitVec 64).toNat = 2 ^ 64 - 1 := by
        rw [ctrInc_append]
        constructor <;> bv_omega

/-- Settles O12: the carry leaves the low word exactly where the low word becomes 0. -/
theorem counterIncrementCarries : Obligations.CounterIncrementCarries :=
  fun lo hi => ⟨rfl, ctrInc_hi lo hi, ctrInc_append lo hi, ctrInc_wrapped_iff_last lo hi⟩

/-! ### The block and the counter after NEXT or CRYPT (R160, R162) -/

theorem generate_counter (s : State) :
    counter (generate s).regs.st = counter s.regs.st + 1 :=
  (counter_withCounter _ _ _).trans (ctrInc_append _ _)

theorem generate_exhausted_iff (s : State) :
    (generate s).regs.exhausted = true ↔ (counter s.regs.st).toNat = 2 ^ 64 - 1 :=
  ctrInc_wrapped_iff_last _ _

theorem generate_ks_getElem (s : State) (i : Nat) (hi : i < 16) : (generate s).regs.ks[i] =
    (permute s.regs.st s.regs.activeConfig.rounds.toNat)[i] + s.regs.st[i] :=
  zipWords_getElem _ _ _ i hi

/-- The block of the last counter value is given, and the counter comes round to 0 (R162). -/
theorem generate_of_last_counter (h : (counter s.regs.st).toNat = 2 ^ 64 - 1) :
    counter (generate s).regs.st = 0 ∧ (generate s).regs.exhausted = true := by
  refine ⟨?_, (generate_exhausted_iff s).2 h⟩
  rw [generate_counter]
  bv_omega

/-! ### The block of the zero key (R160's example, V-P4) -/

/-- The state register INIT builds from a zero 256-bit key and a zero nonce. -/
def zeroKeyState : Block := initBlock .k256 (Vector.replicate 8 0) (Vector.replicate 2 0)

theorem blockOf_zeroKeyState : blockOf zeroKeyState 20 =
    #v[0xade0b876, 0x903df1a0, 0xe56a5d40, 0x28bd8653, 0xb819d2bd, 0x1aed8da0, 0xccef36a8,
      0xc70d778b, 0x7c5941da, 0x8d485751, 0x3fe02477, 0x374ad8b8, 0xf4b8436a, 0x1ca11815,
      0x69b687c3, 0x8665eeb2] := by
  decide +kernel

/-- NEXT after an INIT with a zero 256-bit key, a zero nonce and 20 rounds. -/
theorem exec_init_next_of_zeroKey (hconfig : s.regs.config = ⟨.k256, 20⟩)
    (hkey : s.regs.key = Vector.replicate 8 0) (hnonce : s.regs.nonce = Vector.replicate 2 0) :
    ∃ u t, exec .init s = .next u ∧ exec .next u = .next t ∧
      t.regs.ks = blockOf zeroKeyState 20 ∧ t.regs.st[12] = 1 := by
  have hlegal : roundsLegal s.regs.config.rounds = true := by rw [hconfig]; rfl
  refine ⟨_, _, execInit_of_legal hlegal, execNext_of_ready rfl rfl, ?_, ?_⟩
  · simp [initRegs, activeRounds, zeroKeyState, hconfig, hkey, hnonce]
  · simp [initRegs, initBlock, ctrInc]

/-- Settles O10: the three cases are NEXT's two checks and its success, and the example is the block
of the zero key. -/
theorem nextGeneratesABlock : Obligations.NextGeneratesABlock := by
  refine ⟨rfl, fun s => execNext_of_uninitialized, fun s => execNext_of_exhausted,
    fun s h hx => ⟨_, execNext_of_ready h hx, generate_ks_getElem s, generate_counter s,
      fun i hi => withCounter_other _ _ _ i hi, generate_exhausted_iff s, rfl, rfl, rfl, rfl⟩,
    fun s hconfig hkey hnonce => ?_⟩
  obtain ⟨u, t, hinit, hnext, hks, hst⟩ := exec_init_next_of_zeroKey hconfig hkey hnonce
  rw [blockOf_zeroKeyState] at hks
  refine ⟨u, t, hinit, hnext, ?_⟩
  rw [hks]
  exact ⟨rfl, rfl, rfl, rfl, hst, by decide⟩

/-! ### WRCTR and the exhaustion policy (R162, R164) -/

/-- Settles O15: WRCTR writes the two counter words, and in the example the following NEXT carries
into the high one. -/
theorem wrctrLoadsTheCounter : Obligations.WrctrLoadsTheCounter := by
  refine ⟨rfl, fun s => execWrctr_of_uninitialized,
    fun s h => ⟨_, execWrctr_of_initialized h, withCounter_lo _ _ _, withCounter_hi _ _ _,
      fun i hi => withCounter_other _ _ _ i hi, rfl, rfl, rfl⟩,
    fun s h hlo hhi => ⟨_, _, execWrctr_of_initialized h, execNext_of_ready h rfl, ?_, ?_⟩⟩
  · simp [hlo, ctrInc]
  · simp [hlo, hhi, ctrInc]

/-- Settles O13: NEXT and CRYPT share `generate`, so the last counter value is one case for both. -/
theorem exhaustionPolicy : Obligations.ExhaustionPolicy := by
  refine ⟨fun s h hx hlast => ?last,
    fun s h hx => ⟨execNext_of_exhausted h hx, execCrypt_of_exhausted h hx⟩,
    fun s hlegal => ⟨_, execInit_of_legal hlegal, rfl⟩,
    fun s h => ⟨_, execWrctr_of_initialized h, rfl⟩, fun s => rfl⟩
  case last =>
    obtain ⟨hcounter, hexhausted⟩ := generate_of_last_counter hlast
    exact ⟨_, _, execNext_of_ready h hx, execCrypt_of_ready h hx, rfl, rfl, hcounter, hcounter,
      hexhausted, hexhausted⟩

end Sys2Proof.Machine
end

section
/-! The keystream applier (R180 to R183): the XOR combiner word by word and byte by byte, its
involution, and CRYPT as NEXT followed by XOR. -/

namespace Sys2Proof.Machine

variable {s m : State}

/-! ### The combiner (R180 to R182) -/

@[simp] theorem xorBlock_getElem (p k : Block) (i : Nat) (hi : i < 16) :
    (xorBlock p k)[i] = p[i] ^^^ k[i] :=
  zipWords_getElem _ _ _ i hi

theorem xorBlock_of_zero {p : Block} (k : Block) (hp : ∀ i (_ : i < 16), p[i] = 0) :
    xorBlock p k = k :=
  Vector.ext fun i hi => by simp [hp i hi]

/-- The combiner with one keystream block undoes itself (R182). -/
theorem xorBlock_xorBlock (p k : Block) : xorBlock (xorBlock p k) k = p :=
  Vector.ext fun i hi => by
    rw [xorBlock_getElem, xorBlock_getElem, BitVec.xor_assoc, BitVec.xor_self, BitVec.xor_zero]

theorem byteOf_xor (v w : Word) (j : Nat) : byteOf (v ^^^ w) j = byteOf v j ^^^ byteOf w j :=
  BitVec.extractLsb'_xor

theorem ser_getD (x : Block) {n : Nat} (hn : n < 64) :
    (ser x).getD n 0 = byteOf (x[n / 4]'(by omega)) (n % 4) := by
  have hbyte := ser_getElem? x (i := n / 4) (j := n % 4) (by omega) (Nat.mod_lt n (by decide))
  rw [Nat.div_add_mod] at hbyte
  rw [List.getD_eq_getElem?_getD, hbyte, Option.getD_some]

/-- Byte n of the combined block is made of the bytes n alone (R181). -/
theorem ser_xorBlock_getD (p k : Block) {n : Nat} (hn : n < 64) :
    (ser (xorBlock p k)).getD n 0 = (ser p).getD n 0 ^^^ (ser k).getD n 0 := by
  rw [ser_getD _ hn, ser_getD _ hn, ser_getD _ hn, xorBlock_getElem, byteOf_xor]

/-- Settles O17: the exclusive or of two words is that of their bytes. -/
theorem xorIsBytewise : Obligations.XorIsBytewise :=
  fun _ h hk => ⟨_, execXor_of_ready h hk, fun _ hn => ser_xorBlock_getD _ _ hn⟩

/-- Settles O18: XOR keeps `KS` and its validity, so the second XOR cancels the first. -/
theorem xorInvolution : Obligations.XorInvolution :=
  fun _ h hk => ⟨_, _, execXor_of_ready h hk, execXor_of_ready h hk, xorBlock_xorBlock _ _⟩

/-- Settles O16: XOR's two checks, and the combiner where both pass; no check reads `EXHAUSTED`. -/
theorem xorAppliesTheKeystream : Obligations.XorAppliesTheKeystream := by
  refine ⟨rfl, fun s => execXor_of_uninitialized, fun s => execXor_of_no_keystream,
    fun s h hk => ⟨_, execXor_of_ready h hk, xorBlock_getElem _ _, rfl, rfl, rfl,
      xorBlock_of_zero _, fun hdata hks => ?_⟩⟩
  calc (xorBlock s.regs.dataIn s.regs.ks)[0]
      _ = s.regs.dataIn[0] ^^^ s.regs.ks[0] := xorBlock_getElem _ _ 0 (by decide)
      _ = 0xaee2b976 := by rw [hdata, hks]; rfl

/-! ### CRYPT as NEXT followed by XOR (R183) -/

/-- NEXT leaves an initialised engine with a valid block, so XOR applies to the state it leaves. -/
theorem execXor_after_generate (h : s.regs.initialized = true) :
    execXor (complete .ok (generate s)) = .next (complete .ok (applyKeystream (generate s))) :=
  execXor_of_ready h rfl

/-- CRYPT makes NEXT's checks in NEXT's order, so it fails where NEXT fails and as NEXT does. -/
theorem execCrypt_of_execNext_failed (h : execNext s = .next m) (herr : m.regs.err ≠ .ok) :
    execCrypt s = .next m := by
  obtain ⟨hinit, rfl⟩ | ⟨hinit, hx, rfl⟩ | ⟨-, -, rfl⟩ := execNext_cases h
  · exact execCrypt_of_uninitialized hinit
  · exact execCrypt_of_exhausted hinit hx
  · exact absurd rfl herr

/-- CRYPT after an INIT with a zero 256-bit key, a zero nonce and 20 rounds applies the block that
NEXT gives there. -/
theorem exec_init_crypt_of_zeroKey (hconfig : s.regs.config = ⟨.k256, 20⟩)
    (hkey : s.regs.key = Vector.replicate 8 0) (hnonce : s.regs.nonce = Vector.replicate 2 0) :
    ∃ u t, exec .init s = .next u ∧ exec .crypt u = .next t ∧
      t.regs.dataOut = xorBlock s.regs.dataIn (blockOf zeroKeyState 20) ∧ t.regs.st[12] = 1 := by
  have hlegal : roundsLegal s.regs.config.rounds = true := by rw [hconfig]; rfl
  obtain ⟨u, m, hinit, hnext, hks, hst⟩ := exec_init_next_of_zeroKey hconfig hkey hnonce
  obtain rfl := Host.Outcome.next.inj (hinit.symm.trans (execInit_of_legal hlegal))
  obtain rfl := Host.Outcome.next.inj (hnext.symm.trans (execNext_of_ready rfl rfl))
  exact ⟨_, _, hinit, execCrypt_of_ready rfl rfl, congrArg (xorBlock s.regs.dataIn) hks, hst⟩

/-- Settles O20: where NEXT's checks pass, CRYPT generates and combines as NEXT and XOR do one after
the other; where they fail, both report the same error. -/
theorem cryptGeneratesAndApplies : Obligations.CryptGeneratesAndApplies := by
  refine ⟨rfl, fun s => execCrypt_of_uninitialized, fun s => execCrypt_of_exhausted,
    fun s h hx => ⟨_, _, execCrypt_of_ready h hx, execNext_of_ready h hx, execXor_after_generate h,
      generate_ks_getElem s, xorBlock_getElem _ _, generate_counter s,
      fun i hi => withCounter_other _ _ _ i hi, generate_exhausted_iff s, rfl, rfl, rfl, rfl⟩,
    fun s m => execCrypt_of_execNext_failed,
    fun s hconfig hkey hnonce hd0 hd1 hd2 hd3 => ?zeroKey⟩
  case zeroKey =>
    obtain ⟨u, t, hinit, hcrypt, hout, hst⟩ := exec_init_crypt_of_zeroKey hconfig hkey hnonce
    rw [blockOf_zeroKeyState] at hout
    refine ⟨u, t, hinit, hcrypt, ?_, ?_, ?_, ?_, hst⟩ <;>
      simp [hout, hd0, hd1, hd2, hd3]

end Sys2Proof.Machine
end

section
/-! Errors (R200 to R208): the first check that applies to each command, what the command answers by
it, the words that are no command, and the commands that do not read `CONFIG`. -/

namespace Sys2Proof.Machine

variable {s t u : State} {i : Instr} {e : ErrCode}

/-! ### The first error that applies (R202) -/

/-- The code R202 has each command report: that of its first check that applies, or OK. -/
def firstError (r : Regs) : Instr → ErrCode
  | .nop => .ok
  | .init => if roundsLegal r.config.rounds then .ok else .invalidRounds
  | .next =>
    if r.initialized = false then .notInitialized
    else if r.exhausted then .counterExhausted else .ok
  | .xor =>
    if r.initialized = false then .notInitialized
    else if r.ksValid = false then .noKeystream else .ok
  | .crypt =>
    if r.initialized = false then .notInitialized
    else if r.exhausted then .counterExhausted else .ok
  | .wrctr => if r.initialized = false then .notInitialized else .ok
  | .qrtest => .ok

/-- A command completes with a code, and where it is not OK, what it completes is the state it found
(R200). -/
def Reports (i : Instr) (s : State) (e : ErrCode) : Prop :=
  ∃ u, exec i s = .next (complete e u) ∧ (e ≠ .ok → u = s)

theorem Reports.of_failure (h : exec i s = .next (complete e s)) : Reports i s e :=
  ⟨s, h, fun _ => rfl⟩

theorem Reports.of_success (h : exec i s = .next (complete .ok u)) : Reports i s .ok :=
  ⟨u, h, absurd rfl⟩

/-- Each row of R202's table is the row of checks in the command's own meaning. -/
theorem reports_firstError (i : Instr) (s : State) : Reports i s (firstError s.regs i) := by
  cases i with
  | nop => exact .of_success (u := { s with regs.overrun := false }) rfl
  | init =>
    simp only [firstError]
    split_ifs with hlegal
    · exact .of_success (execInit_of_legal hlegal)
    · exact .of_failure (execInit_of_illegal (eq_false_of_ne_true hlegal))
  | next =>
    simp only [firstError]
    split_ifs with hinit hx
    · exact .of_failure (execNext_of_uninitialized hinit)
    · exact .of_failure (execNext_of_exhausted (eq_true_of_ne_false hinit) hx)
    · exact .of_success (execNext_of_ready (eq_true_of_ne_false hinit) (eq_false_of_ne_true hx))
  | xor =>
    simp only [firstError]
    split_ifs with hinit hk
    · exact .of_failure (execXor_of_uninitialized hinit)
    · exact .of_failure (execXor_of_no_keystream (eq_true_of_ne_false hinit) hk)
    · exact .of_success (execXor_of_ready (eq_true_of_ne_false hinit) (eq_true_of_ne_false hk))
  | crypt =>
    simp only [firstError]
    split_ifs with hinit hx
    · exact .of_failure (execCrypt_of_uninitialized hinit)
    · exact .of_failure (execCrypt_of_exhausted (eq_true_of_ne_false hinit) hx)
    · exact .of_success (execCrypt_of_ready (eq_true_of_ne_false hinit) (eq_false_of_ne_true hx))
  | wrctr =>
    simp only [firstError]
    split_ifs with hinit
    · exact .of_failure (execWrctr_of_uninitialized hinit)
    · exact .of_success (execWrctr_of_initialized (eq_true_of_ne_false hinit))
  | qrtest => exact .of_success (execQrtest_eq s)

theorem exists_exec_err (i : Instr) (s : State) :
    ∃ t, exec i s = .next t ∧ t.regs.err = firstError s.regs i := by
  obtain ⟨u, hexec, -⟩ := reports_firstError i s
  exact ⟨_, hexec, rfl⟩

theorem exec_err_eq_firstError (h : exec i s = .next t) : t.regs.err = firstError s.regs i := by
  obtain ⟨u, hexec, herr⟩ := exists_exec_err i s
  cases h.symm.trans hexec
  exact herr

theorem exec_eq_complete_of_err_ne_ok (h : exec i s = .next t) (herr : t.regs.err ≠ .ok) :
    t = complete t.regs.err s := by
  obtain ⟨u, hexec, hfail⟩ := reports_firstError i s
  cases h.symm.trans hexec
  rw [hfail herr, complete_regs]

/-- No row of the table has the code of a word that is no command (R208). -/
theorem firstError_ne_illegalCommand (r : Regs) (i : Instr) : firstError r i ≠ .illegalCommand := by
  fun_cases firstError r i <;> decide

/-- Only INIT's row has `INVALID_ROUNDS` (R204). -/
theorem firstError_ne_invalidRounds (r : Regs) (hi : i ≠ .init) :
    firstError r i ≠ .invalidRounds := by
  cases i with
  | init => exact absurd rfl hi
  | nop | qrtest => nofun
  | next | xor | crypt | wrctr => simp only [firstError]; split_ifs <;> decide

/-! ### Words that are no command (R208) -/

theorem engineStep_of_no_instr (h : ∀ i, decode s.engine.cur ≠ .instr i) :
    engineStep s = .next (complete .illegalCommand s) := by
  obtain ⟨i, hdec, -⟩ | ⟨-, heq⟩ := engineStep_cases s
  · exact absurd hdec (h i)
  · exact heq

theorem exists_decode_eq_instr_iff_fields {c : Word} :
    (∃ i, decode c = .instr i) ↔ rsvField c = 0 ∧ (opcodeField c).toNat < 7 := by
  simp only [decode_eq_instr_iff, eq_encode_iff, exists_and_left, exists_eq_opcodeOf_iff]

theorem engineStep_eq_complete_of_err_ne_ok (h : engineStep s = .next t) (herr : t.regs.err ≠ .ok) :
    t = complete t.regs.err s := by
  obtain ⟨i, -, heq⟩ | ⟨-, heq⟩ := engineStep_cases s
  · exact exec_eq_complete_of_err_ne_ok (heq ▸ h) herr
  · cases heq ▸ h
    rfl

/-! ### `CONFIG` (R109, R204) -/

theorem roundsLegal_iff {r : BitVec 8} : roundsLegal r = true ↔ r.toNat ∈ [8, 12, 20] := by
  simp [roundsLegal, ← BitVec.toNat_inj, or_assoc]

/-- No check but INIT's, and no other command's writes, depend on `CONFIG` (R109). -/
theorem exec_with_config (hi : i ≠ .init) (h : exec i s = .next t) (c : ConfigReg) :
    exec i { s with regs.config := c } = .next { t with regs.config := c } := by
  cases i with
  | init => exact absurd rfl hi
  | nop => rw [execNop_cases h]; rfl
  | next =>
    obtain ⟨hinit, rfl⟩ | ⟨hinit, hx, rfl⟩ | ⟨hinit, hx, rfl⟩ := execNext_cases h
    · exact execNext_of_uninitialized hinit
    · exact execNext_of_exhausted hinit hx
    · exact execNext_of_ready hinit hx
  | xor =>
    obtain ⟨hinit, rfl⟩ | ⟨hinit, hk, rfl⟩ | ⟨hinit, hk, rfl⟩ := execXor_cases h
    · exact execXor_of_uninitialized hinit
    · exact execXor_of_no_keystream hinit hk
    · exact execXor_of_ready hinit hk
  | crypt =>
    obtain ⟨hinit, rfl⟩ | ⟨hinit, hx, rfl⟩ | ⟨hinit, hx, rfl⟩ := execCrypt_cases h
    · exact execCrypt_of_uninitialized hinit
    · exact execCrypt_of_exhausted hinit hx
    · exact execCrypt_of_ready hinit hx
  | wrctr =>
    obtain ⟨hinit, rfl⟩ | ⟨hinit, rfl⟩ := execWrctr_cases h
    · exact execWrctr_of_uninitialized hinit
    · exact execWrctr_of_initialized hinit
  | qrtest => cases h; rfl

/-! ### The obligations -/

/-- Settles O29: a failing command completes the state it found, and so does a word that is none. -/
theorem failureWritesErrAlone : Obligations.FailureWritesErrAlone :=
  ⟨fun _ _ _ => exec_eq_complete_of_err_ne_ok, fun _ _ hp hd h =>
    engineStep_eq_complete_of_err_ne_ok (step_of_completion hp hd ▸ h)⟩

/-- Settles O31: the words that are no command are those with a reserved field, and no command
reports the code of such a word. -/
theorem illegalWordsReportIllegalCommand : Obligations.IllegalWordsReportIllegalCommand := by
  intro s hp hd
  rw [step_of_completion hp hd]
  constructor
  · intro hreserved
    refine engineStep_of_no_instr fun i hdec => ?_
    obtain ⟨hrsv, hop⟩ := exists_decode_eq_instr_iff_fields.1 ⟨i, hdec⟩
    exact hreserved.elim hop.not_ge (· hrsv)
  · intro hop hrsv
    obtain ⟨i, hdec⟩ := exists_decode_eq_instr_iff_fields.2 ⟨hrsv, hop⟩
    obtain ⟨t, hexec, herr⟩ := exists_exec_err i s
    exact ⟨t, (engineStep_of_instr hdec).trans hexec, herr ▸ firstError_ne_illegalCommand _ i⟩

/-- Settles O7: a refused INIT completes the state it found, and the other commands neither report
the round count nor read `CONFIG` at all. -/
theorem initRefusesOtherRoundCounts : Obligations.InitRefusesOtherRoundCounts := by
  refine ⟨fun s hout => ?refused, fun s hin => ?accepted,
    fun i s t hi h => ?code, fun i s t c hi h => exec_with_config hi h c⟩
  case refused => exact execInit_of_illegal (eq_false_of_ne_true (mt roundsLegal_iff.1 hout))
  case accepted => exact ⟨_, execInit_of_legal (roundsLegal_iff.2 hin), rfl⟩
  case code => rw [exec_err_eq_firstError h]; exact firstError_ne_invalidRounds _ hi

/-- Settles O30: `firstError` is R202's table, and every command reports it. -/
theorem checkOrder : Obligations.CheckOrder :=
  fun s => ⟨fun c hc => ⟨_, engineStep_of_no_instr (s := { s with engine.cur := c }) hc, rfl⟩,
    exists_exec_err .nop s, exists_exec_err .init s, exists_exec_err .next s,
    exists_exec_err .xor s, exists_exec_err .crypt s, exists_exec_err .wrctr s,
    exists_exec_err .qrtest s⟩

end Sys2Proof.Machine
end

section
/-! Reset (R230, R231) and `INITIALIZED` (R30, R233): what each agent's move does to the flag, and what
a reset leaves of the block and gives the host. -/

namespace Sys2Proof.Machine

variable {s t : State}

/-! ### What writes `INITIALIZED` (R30, R233) -/

/-- Of the commands INIT alone writes `INITIALIZED`, and only where it passes its check. -/
theorem exec_initialized_cases {i : Instr} (h : exec i s = .next t) :
    t.regs.initialized = s.regs.initialized ∨
    (i = .init ∧ roundsLegal s.regs.config.rounds = true ∧ t.regs.initialized = true) := by
  cases i with
  | init =>
    obtain ⟨hlegal, rfl⟩ | ⟨-, rfl⟩ := execInit_cases h
    · exact .inr ⟨rfl, hlegal, rfl⟩
    · exact .inl rfl
  | nop => rw [execNop_cases h]; exact .inl rfl
  | next => left; obtain ⟨-, rfl⟩ | ⟨-, -, rfl⟩ | ⟨-, -, rfl⟩ := execNext_cases h <;> rfl
  | xor => left; obtain ⟨-, rfl⟩ | ⟨-, -, rfl⟩ | ⟨-, -, rfl⟩ := execXor_cases h <;> rfl
  | crypt => left; obtain ⟨-, rfl⟩ | ⟨-, -, rfl⟩ | ⟨-, -, rfl⟩ := execCrypt_cases h <;> rfl
  | wrctr => left; obtain ⟨-, rfl⟩ | ⟨-, rfl⟩ := execWrctr_cases h <;> rfl
  | qrtest => cases h; exact .inl rfl

theorem engineStep_initialized_cases (h : engineStep s = .next t) :
    t.regs.initialized = s.regs.initialized ∨
    (s.engine.cur = encode .init ∧ roundsLegal s.regs.config.rounds = true ∧
      t.regs.initialized = true) := by
  obtain ⟨i, hdec, heq⟩ | ⟨-, heq⟩ := engineStep_cases s
  · obtain hsame | ⟨rfl, hlegal, hset⟩ := exec_initialized_cases (heq ▸ h)
    · exact .inl hsame
    · exact .inr ⟨decode_eq_instr_iff.1 hdec, hlegal, hset⟩
  · cases heq ▸ h; exact .inl rfl

theorem hostStep_initialized_cases (h : hostStep s = .next t) :
    t.regs.initialized = s.regs.initialized ∨
    ((∃ during rest, s.env.host = .reset during :: rest) ∧ t.regs.initialized = false) := by
  obtain ⟨hregs, -⟩ | ⟨a, v, rest, -, rfl⟩ | ⟨during, rest, hhost, hregs, -, -⟩ :=
    hostStep_cases h
  · exact .inl (by rw [hregs])
  · exact .inl (by rw [busWrite_regs, popHost_regs])
  · exact .inr ⟨⟨during, rest, hhost⟩, by rw [hregs]; rfl⟩

/-- What a step can do to `INITIALIZED`: nothing, a reset, or the completion of a legal INIT. -/
theorem step_initialized_cases (h : step s = .next t) :
    t.regs.initialized = s.regs.initialized ∨
    (((s.engine.phase = .idle ∨ 0 < s.env.delay) ∧
      ∃ during rest, s.env.host = .reset during :: rest) ∧ t.regs.initialized = false) ∨
    ((s.engine.phase = .busy ∧ s.env.delay = 0 ∧ s.engine.cur = encode .init ∧
      roundsLegal s.regs.config.rounds = true) ∧ t.regs.initialized = true) := by
  obtain ⟨hp, hd, heq⟩ | ⟨hp, heq⟩ | ⟨d, -, hd, heq⟩ := step_cases s
  · obtain hsame | ⟨hcur, hlegal, hset⟩ := engineStep_initialized_cases (heq ▸ h)
    · exact .inl hsame
    · exact .inr (.inr ⟨⟨hp, hd, hcur, hlegal⟩, hset⟩)
  · obtain hsame | ⟨hreset, hclear⟩ := hostStep_initialized_cases (heq ▸ h)
    · exact .inl hsame
    · exact .inr (.inl ⟨⟨.inl hp, hreset⟩, hclear⟩)
  · have hpos : 0 < s.env.delay := hd ▸ d.succ_pos
    obtain hsame | ⟨hreset, hclear⟩ := hostStep_initialized_cases (heq ▸ h)
    · exact .inl hsame
    · exact .inr (.inl ⟨⟨.inr hpos, hreset⟩, hclear⟩)

/-! ### The host's reset (R230) -/

theorem foldl_transactInReset_reads (ts : List Transaction) (s : State) :
    (ts.foldl transactInReset s).env.reads =
      s.env.reads ++ List.replicate (ts.countP fun x => x matches .read _) 0 := by
  induction ts generalizing s with
  | nil => simp
  | cons x ts ih =>
    rw [List.foldl_cons, ih]
    cases x with
    | write a v => simp [transactInReset]
    | read a => simp [transactInReset, List.replicate_succ]

theorem resetAction_reads (ts : List Transaction) (s : State) : (resetAction ts s).env.reads =
    s.env.reads ++ List.replicate (ts.countP fun x => x matches .read _) 0 :=
  foldl_transactInReset_reads ts (resetBlock s)

/-- A reset that is the host's turn acts on the state found but for the engine cycle it takes. -/
theorem step_of_reset {during : List Transaction} {rest : List HostOp}
    (hhost : s.env.host = .reset during :: rest)
    (hturn : s.engine.phase = .idle ∨ 0 < s.env.delay) :
    ∃ d, step s = .next (resetAction during (popHost { s with env.delay := d })) := by
  obtain ⟨hp, hd, -⟩ | ⟨-, heq⟩ | ⟨d, -, -, heq⟩ := step_cases s
  · simp [hp, hd] at hturn
  · exact ⟨s.env.delay, heq.trans (hostStep_of_reset hhost)⟩
  · exact ⟨d, heq.trans (hostStep_of_reset (s := { s with env.delay := d }) hhost)⟩

/-! ### The obligations -/

/-- Settles O4: a step that changes `INITIALIZED` is one of the two that `step_initialized_cases`
lists. -/
theorem onlyResetUninitialises : Obligations.OnlyResetUninitialises := by
  refine fun s t h => ⟨fun hs ht => ?clears, fun hs ht => ?sets⟩
  case clears =>
    obtain hsame | ⟨hreset, -⟩ | ⟨-, hset⟩ := step_initialized_cases h
    · simp [hsame, hs] at ht
    · exact hreset
    · simp [hset] at ht
  case sets =>
    obtain hsame | ⟨-, hclear⟩ | ⟨hinit, -⟩ := step_initialized_cases h
    · simp [hsame, hs] at ht
    · simp [hclear] at ht
    · exact hinit

/-- Settles O1: every register and flag of the reset state holds zero, and `READY` is 1. -/
theorem resetState : Obligations.ResetState :=
  ⟨rfl, rfl, rfl, rfl, rfl, rfl, rfl, zeroBlock_getElem, rfl, rfl, rfl,
    fun _ => Vector.getElem_replicate, fun _ => Vector.getElem_replicate, rfl, rfl,
    zeroBlock_getElem, zeroBlock_getElem, zeroBlock_getElem, rfl⟩

/-- Settles O3: the reset of R230 is the host's one move, from either of the two phases. -/
theorem resetAbandonsTheCommand : Obligations.ResetAbandonsTheCommand := by
  intro s during rest hhost hturn
  obtain ⟨d, hstep⟩ := step_of_reset hhost hturn
  exact ⟨_, hstep, resetAction_regs _, by rw [resetAction_engine]; rfl, by simp [hhost],
    resetAction_reads _ _⟩

/-- Settles O43: a bus write of any word to any address while a command is in flight is dropped. -/
theorem writesWhileBusyAreDropped : Obligations.WritesWhileBusyAreDropped :=
  fun _ a v => busWrite_of_busy a v

end Sys2Proof.Machine
end

section
/-! Transaction records (R89): a record is its three fields, and each of them is read back from the
encoding. -/

namespace Sys2Proof

/-! ### The fields of a record -/

/-- The three fields are the whole record. -/
theorem record_eq_append (r : BitVec 41) :
    r.extractLsb' 40 1 ++ r.extractLsb' 32 8 ++ r.extractLsb' 0 32 = r := by
  rw [BitVec.extractLsb'_append_extractLsb'_eq_extractLsb' (start₂ := 40) (start₁ := 32) rfl,
    BitVec.extractLsb'_append_extractLsb'_eq_extractLsb' (start₂ := 32) (start₁ := 0) rfl]
  exact BitVec.extractLsb'_eq_self

theorem toNat_append_eq_add {m n : Nat} (hi : BitVec m) (lo : BitVec n) :
    (hi ++ lo).toNat = hi.toNat * 2 ^ n + lo.toNat := by
  rw [BitVec.toNat_append, Nat.shiftLeft_eq, Nat.mul_comm, Nat.two_pow_add_eq_or_of_lt lo.isLt]

section
variable (we : BitVec 1) (a : Addr) (v : Word)

@[simp] theorem record_we : (we ++ a ++ v).extractLsb' 40 1 = we :=
  (BitVec.extractLsb'_append_eq_of_le (by decide)).trans BitVec.extractLsb'_append_eq_left

@[simp] theorem record_addr : (we ++ a ++ v).extractLsb' 32 8 = a :=
  (BitVec.extractLsb'_append_eq_of_le le_rfl).trans BitVec.extractLsb'_append_eq_right

@[simp] theorem record_wdata : (we ++ a ++ v).extractLsb' 0 32 = v :=
  BitVec.extractLsb'_append_eq_right

theorem record_toNat :
    (we ++ a ++ v).toNat = we.toNat * 2 ^ 40 + a.toNat * 2 ^ 32 + v.toNat := by
  rw [toNat_append_eq_add, toNat_append_eq_add]
  omega

end

/-! ### The decoder of records -/

@[simp] theorem decodeTransaction_encodeTransaction (t : Transaction) :
    decodeTransaction (encodeTransaction t) = some t := by
  cases t with
  | write a v => simp [decodeTransaction, encodeTransaction]
  | read a => simp [decodeTransaction, encodeTransaction]

/-- What the decoder makes of a record: a write, a read with `WDATA` zero, or none. -/
theorem decodeTransaction_cases (r : BitVec 41) :
    (∃ t, decodeTransaction r = some t ∧ encodeTransaction t = r ∧ wfRecord r = true) ∨
    (decodeTransaction r = none ∧ wfRecord r = false) := by
  have hfields := record_eq_append r
  by_cases hwe : r.extractLsb' 40 1 = 1
  · left
    rw [hwe] at hfields
    exact ⟨_, if_pos hwe, hfields, by simp [wfRecord, hwe]⟩
  · have hread : r.extractLsb' 40 1 = 0 := (BitVec.eq_zero_or_eq_one _).resolve_right hwe
    by_cases hdata : r.extractLsb' 0 32 = 0
    · left
      rw [hread, hdata] at hfields
      exact ⟨_, (if_neg hwe).trans (if_pos hdata), hfields, by simp [wfRecord, hdata]⟩
    · right
      exact ⟨(if_neg hwe).trans (if_neg hdata), by simpa [wfRecord, hread] using hdata⟩

theorem encodeTransaction_of_decodeTransaction {r : BitVec 41} {t : Transaction}
    (h : decodeTransaction r = some t) : encodeTransaction t = r := by
  obtain ⟨u, hdec, henc, -⟩ | ⟨hnone, -⟩ := decodeTransaction_cases r
  · cases hdec.symm.trans h; exact henc
  · cases hnone.symm.trans h

theorem wfRecord_iff {r : BitVec 41} :
    wfRecord r = true ↔ ∃ t, decodeTransaction r = some t := by
  obtain ⟨t, hdec, -, hwf⟩ | ⟨hnone, hwf⟩ := decodeTransaction_cases r
  · simp [hdec, hwf]
  · simp [hnone, hwf]

/-- Settles O33: a record is the append of its fields, so the decoder and the encoder undo each
other on the records that stand for a transaction. -/
theorem transactionRecordsRoundTrip : Obligations.TransactionRecordsRoundTrip := by
  refine ⟨decodeTransaction_encodeTransaction, fun r t => encodeTransaction_of_decodeTransaction,
    fun r => wfRecord_iff, fun a v => ⟨?write, ?read⟩⟩
  case write => exact (record_toNat 1 a v).trans (by simp)
  case read => exact (record_toNat 0 a 0).trans (by simp)

/-- Settles O34: every word and record is written out, so the decoders evaluate. -/
theorem sampleWordsDecode : Obligations.SampleWordsDecode :=
  ⟨rfl, rfl, rfl, rfl, rfl, rfl, rfl⟩

end Sys2Proof
end

section
/-! `STATUS` and the reads of the bus (R28, R43, R242): the status word bit by bit, reads while a
command is in flight, the unmapped addresses, and every address after reset. -/

namespace Sys2Proof.Machine

variable {s : State} {a : Addr}

/-! ### `STATUS` bit by bit (R28, R29) -/

/-- Bit i of `STATUS`: the five flags in bits 4:0, and the code of `ERR` from bit 8 up (R28). -/
def statusBit (s : State) (i : Nat) : Bool :=
  if i < 8 then
    [ready s, s.regs.initialized, s.regs.ksValid, s.regs.exhausted, s.regs.overrun].getD i false
  else (errBits s.regs.err).getLsbD (i - 8)

theorem statusWord_getLsbD (s : State) {i : Nat} (hi : i < 32) :
    (statusWord s).getLsbD i = statusBit s i := by
  simp only [statusWord, statusBit, BitVec.getLsbD_append]
  interval_cases i <;> simp

theorem statusWord_extractLsb' {start len : Nat} {x : BitVec len} (hlen : start + len ≤ 32)
    (hx : ∀ i < len, x.getLsbD i = statusBit s (start + i)) :
    (statusWord s).extractLsb' start len = x := by
  refine BitVec.eq_of_getLsbD_eq fun i hi => ?_
  rw [BitVec.getLsbD_extractLsb', hx i hi, statusWord_getLsbD s (by omega)]
  simp [hi]

@[simp] theorem ready_eq_true_iff : ready s = true ↔ s.engine.phase = .idle := beq_iff_eq

/-- Bit 0 of `STATUS` is `READY` (R29). -/
theorem statusWord_ready (s : State) : (statusWord s).getLsbD 0 = ready s :=
  statusWord_getLsbD s (by decide)

theorem statusWord_err (s : State) :
    (statusWord s).extractLsb' 8 4 = errBits s.regs.err :=
  statusWord_extractLsb' (by decide) fun i _ => by simp [statusBit]

/-- Settles O38: a field of the word is the bits of `statusBit` from its first position on. -/
theorem statusLayout : Obligations.StatusLayout := by
  intro s
  refine ⟨?ready, statusWord_getLsbD s (by decide), statusWord_getLsbD s (by decide),
    statusWord_getLsbD s (by decide), statusWord_getLsbD s (by decide),
    statusWord_extractLsb' (by decide) ?reserved, ?err,
    statusWord_extractLsb' (by decide) ?reservedHigh⟩
  case ready => rw [statusWord_ready, ready_eq_true_iff]
  case reserved => intro i hi; interval_cases i <;> rfl
  case err => rw [statusWord_err]; cases s.regs.err <;> rfl
  case reservedHigh =>
    intro i _
    have hout : 4 ≤ 12 + i - 8 := by omega
    rw [statusBit, if_neg (by omega), BitVec.getLsbD_of_ge _ _ hout]
    exact BitVec.getLsbD_zero

/-! ### Writes of `CONFIG` and of `CMD` (R26, R240) -/

/-- Settles O39: the write stores the fields of `CONFIG`, which read back as the masked word. -/
theorem configKeepsItsFields : Obligations.ConfigKeepsItsFields := by
  intro s v hi
  rw [busWrite_regAddr .config v hi]
  exact ⟨busRead_writeReg_same hi rfl, rfl⟩

theorem busRead_status (s : State) : busRead (regAddr .status) s = statusWord s :=
  busRead_of_not_isResult (regAt_regAddr .status) rfl

theorem statusWord_ready_of_idle (h : s.engine.phase = .idle) :
    (statusWord s).getLsbD 0 = true := by
  rw [statusWord_ready, ready_eq_true_iff, h]

theorem statusWord_ready_of_busy (h : s.engine.phase = .busy) :
    (statusWord s).getLsbD 0 = false := by
  rw [statusWord_ready, ready, h]
  rfl

/-- Settles O42: acceptance makes the engine busy with the word, and `READY` is its phase. -/
theorem acceptanceTakesEveryWord : Obligations.AcceptanceTakesEveryWord := by
  intro s c hi
  rw [busWrite_regAddr .cmd c hi, busRead_status]
  exact ⟨rfl, rfl, statusWord_ready_of_busy rfl⟩

/-! ### Reads while a command is in flight (R242) -/

theorem readIsOpen_of_isResult {r : Reg} (h : s.engine.phase = .busy) (hr : isResult r = true) :
    readIsOpen (regAddr r) s = true := by
  simp [readIsOpen, h, hr]

theorem expectRead_of_isOpen (v : Word) (h : readIsOpen a s = true) :
    expectRead a v s = .fault .dependsOnBusyRead :=
  if_pos h

/-- Settles O44: a result register is open, so that an assertion of its value stops the program, and
every other register reads its contents. -/
theorem readsWhileBusy : Obligations.ReadsWhileBusy := by
  intro s r v hp
  have hopen (hr : isResult r = true) : readIsOpen (regAddr r) s = true ∧
      expectRead (regAddr r) v s = .fault .dependsOnBusyRead :=
    have h := readIsOpen_of_isResult hp hr
    ⟨h, expectRead_of_isOpen v h⟩
  have hread (hr : isResult r = false) : busRead (regAddr r) s = readReg r s :=
    busRead_of_not_isResult (regAt_regAddr r) hr
  cases r with
  | state | ks | dataOut => exact hopen rfl
  | status => exact ⟨hread rfl, statusWord_ready_of_busy hp⟩
  | cmd | config | activeConfig | ctrInLo | ctrInHi | key | nonce | dataIn => exact hread rfl

/-! ### The register map (R43) -/

theorem arrayIndex_eq_none_iff {base n : Nat} :
    arrayIndex base n a = none ↔ ¬(base ≤ a.toNat ∧ a.toNat < base + n) :=
  dite_eq_right_iff.trans (by simp)

theorem regAt_eq_none_iff : regAt a = none ↔
    (0x06 ≤ a.toNat ∧ a.toNat ≤ 0x07) ∨ (0x12 ≤ a.toNat ∧ a.toNat ≤ 0x1F) ∨ 0x60 ≤ a.toNat := by
  unfold regAt
  split_ifs with h0 h1 h2 h3 h4 h5
  -- the addresses of the six registers before the arrays
  iterate 6 exact iff_of_false nofun (by subst a; decide)
  simp only [Option.orElse_eq_orElse, Option.orElse_eq_or, Option.or_eq_none_iff,
    Option.map_eq_none_iff, arrayIndex_eq_none_iff]
  bv_omega

/-- The address of an array register is its index beyond the base of the array. -/
theorem toNat_ofNat_add_ofNat {base n : Nat} (hbase : base + n ≤ 2 ^ 8) (i : Fin n) :
    (BitVec.ofNat 8 base + BitVec.ofNat 8 i).toNat = base + i.val := by
  rw [← BitVec.ofNat_add, BitVec.toNat_ofNat, Nat.mod_eq_of_lt (by omega)]

/-- Settles O37: the map and its inverse, and the unmapped addresses as the ones no range covers. -/
theorem registerMap : Obligations.RegisterMap :=
  ⟨rfl, rfl, rfl, rfl, rfl, rfl, toNat_ofNat_add_ofNat (by decide),
    toNat_ofNat_add_ofNat (by decide), toNat_ofNat_add_ofNat (by decide),
    toNat_ofNat_add_ofNat (by decide), toNat_ofNat_add_ofNat (by decide),
    toNat_ofNat_add_ofNat (by decide), regAt_regAddr, fun _ _ => regAddr_of_regAt,
    fun _ => regAt_eq_none_iff⟩

/-! ### The bus after reset -/

theorem readReg_reset (r : Reg) :
    readReg r State.reset = if r = .status then 0x00000001 else 0 := by
  cases r with
  | key i => exact Vector.getElem_replicate i.isLt
  | nonce i => exact Vector.getElem_replicate i.isLt
  | dataIn i | dataOut i | state i | ks i => exact zeroBlock_getElem i.val i.isLt
  | status | cmd | config | activeConfig | ctrInLo | ctrInHi => rfl

theorem regAddr_eq_status_iff {r : Reg} : regAddr r = 0x01 ↔ r = .status := by
  constructor
  · intro h
    exact Option.some.inj ((regAt_regAddr r).symm.trans (h ▸ regAt_regAddr .status))
  · rintro rfl; rfl

/-- Settles O2: every mapped address reads its register, and of the reset values `STATUS` alone is
not 0. -/
theorem resetReadsThroughTheBus : Obligations.ResetReadsThroughTheBus := by
  intro a
  cases hr : regAt a with
  | none =>
    have hstatus : a ≠ 0x01 := by rintro rfl; cases hr
    rw [busRead_unmapped hr, if_neg hstatus]
  | some r =>
    obtain rfl := regAddr_of_regAt hr
    rw [busRead_regAddr r rfl, readReg_reset]
    simp only [regAddr_eq_status_iff]

end Sys2Proof.Machine
end

section
/-! The host assembler (R88, R91): the `CONFIG` word of `cfg` as the fields it names, and the writes
each pseudo-instruction stands for. -/

namespace Sys2Proof.Machine

/-! ### The `CONFIG` word (R26, R88) -/

theorem cfgWord_toNat (keylen : Nat) {n : Nat} (hn : n < 256) :
    (cfgWord keylen n).toNat = n * 2 ^ 8 + if keylen = 256 then 1 else 0 := by
  have hshift : (BitVec.ofNat 32 n <<< 8).toNat = 2 ^ 8 * n := by
    rw [BitVec.toNat_shiftLeft, BitVec.toNat_ofNat, Nat.shiftLeft_eq]
    omega
  have hbit : (if keylen = 256 then 1 else 0 : Word).toNat = if keylen = 256 then 1 else 0 := by
    split <;> rfl
  rw [cfgWord, BitVec.toNat_or, hshift, hbit,
    ← Nat.two_pow_add_eq_or_of_lt (by split <;> decide), Nat.mul_comm]

theorem configWord_toNat (k : KeyLen) (r : BitVec 8) :
    (configWord ⟨k, r⟩).toNat = r.toNat * 2 ^ 8 + (keyLenBit k).toNat := by
  rw [configWord, toNat_append_eq_add, toNat_append_eq_add, toNat_append_eq_add]
  simp [Nat.mul_assoc]

/-- The word `cfg` writes is the word `CONFIG` reads as when it holds the fields named. -/
theorem cfgWord_eq_configWord {keylen n : Nat} {k : KeyLen} (hn : n < 256)
    (hk : (keyLenBit k).toNat = if keylen = 256 then 1 else 0) :
    cfgWord keylen n = configWord ⟨k, BitVec.ofNat 8 n⟩ := by
  apply BitVec.eq_of_toNat_eq
  rw [cfgWord_toNat keylen hn, configWord_toNat, hk, BitVec.toNat_ofNat, Nat.mod_eq_of_lt hn]

theorem configOfWord_configWord (c : ConfigReg) : configOfWord (configWord c) = c := by
  obtain ⟨k, r⟩ := c
  have hrounds : (configWord ⟨k, r⟩).extractLsb' 8 8 = r := by
    apply BitVec.eq_of_toNat_eq
    rw [BitVec.extractLsb'_toNat, configWord_toNat, Nat.shiftRight_eq_div_pow]
    omega
  have hbit : (configWord ⟨k, r⟩).getLsbD 0 = (keyLenBit k).getLsbD 0 := by
    rw [configWord, BitVec.getLsbD_append, if_pos (by decide)]
  rw [configOfWord, hrounds, hbit]
  cases k <;> rfl

/-- Settles O35: `cfg` writes a word that `CONFIG` can read as, and storing such a word stores the
fields it was read from. -/
theorem cfgWordStoresBothFields : Obligations.CfgWordStoresBothFields := by
  intro n hn
  have h128 := cfgWord_eq_configWord (keylen := 128) (k := .k128) hn rfl
  have h256 := cfgWord_eq_configWord (keylen := 256) (k := .k256) hn rfl
  rw [h128, h256]
  simp only [configOfWord_configWord, and_self]

/-! ### The writes of key words (R91) -/

theorem keyOps_length {words : List Word} (h : words.length ≤ 8) :
    (keyOps words).length = words.length := by
  simp [keyOps, h]

/-- The writes of key words go to `KEY0` onwards, one for each word. -/
theorem keyOps_getElem? {words : List Word} (h : words.length ≤ 8) (i : Nat)
    (hi : i < words.length) :
    (keyOps words)[i]? = some (.bus (.write (BitVec.ofNat 8 (8 + i)) words[i])) := by
  have hkey : i < 8 := by omega
  simp [keyOps, writeOp, regAddr, BitVec.ofNat_add, hi, hkey]

/-- Settles O36: every expansion but that of `key` is a list written out. -/
theorem pseudoInstructionsExpand : Obligations.PseudoInstructionsExpand := by
  refine ⟨fun i => ⟨rfl, rfl⟩, rfl, fun n => ⟨rfl, rfl⟩, fun words hlen => ?key,
    fun n0 n1 => rfl, fun lo hi => rfl⟩
  case key =>
    have h8 : words.length ≤ 8 := by omega
    exact ⟨keyOps_length h8, keyOps_getElem? h8⟩

end Sys2Proof.Machine
end

section
/-! Completion (R9, R243) and what the commands write: every accepted word completes, no command
writes a staging register, the writers of the state register, and the registers that stay zero
before the first INIT. -/

namespace Sys2Proof.Machine

variable {s t : State} {r : Regs} {i : Instr}

/-! ### Every accepted word completes (R9, R243) -/

theorem exists_exec (i : Instr) (s : State) :
    ∃ t, exec i s = .next t ∧ t.engine.phase = .idle ∧ t.env = s.env := by
  obtain ⟨u, hexec, -⟩ := reports_firstError i s
  exact ⟨_, hexec, rfl, exec_env hexec⟩

/-- Whatever the word in flight and the state, its completion answers an idle engine. -/
theorem exists_engineStep (s : State) :
    ∃ t, engineStep s = .next t ∧ t.engine.phase = .idle ∧ t.env = s.env := by
  obtain ⟨i, -, heq⟩ | ⟨-, heq⟩ := engineStep_cases s
  · obtain ⟨t, hexec, hidle, henv⟩ := exists_exec i s
    exact ⟨t, heq.trans hexec, hidle, henv⟩
  · exact ⟨_, heq, rfl, rfl⟩

/-- Settles O46: the step that finds no engine cycle left is the completion. -/
theorem everyAcceptedWordCompletes : Obligations.EveryAcceptedWordCompletes := by
  intro s hp hd
  obtain ⟨t, hstep, hidle, henv⟩ := exists_engineStep s
  exact ⟨t, (step_of_completion hp hd).trans hstep, hidle, henv, by rw [ready, hidle]; rfl⟩

/-- Settles O45: the completion performs the command that the accepted word decodes to. -/
theorem stepPerformsTheAcceptedCommand : Obligations.StepPerformsTheAcceptedCommand :=
  fun _ _ hp hd hdec => (step_of_completion hp hd).trans (engineStep_of_instr hdec)

/-! ### The registers commands write (R86, R235) -/

/-- A command reaches the cipher registers, `DATA_OUT` and `STATUS` alone. -/
theorem exec_regs (h : exec i s = .next t) : t.regs =
    { s.regs with
      st := t.regs.st
      activeConfig := t.regs.activeConfig
      initialized := t.regs.initialized
      ksValid := t.regs.ksValid
      exhausted := t.regs.exhausted
      overrun := t.regs.overrun
      err := t.regs.err
      dataOut := t.regs.dataOut
      ks := t.regs.ks } := by
  cases i with
  | nop => rw [execNop_cases h]; rfl
  | init => obtain ⟨-, rfl⟩ | ⟨-, rfl⟩ := execInit_cases h <;> rfl
  | next => obtain ⟨-, rfl⟩ | ⟨-, -, rfl⟩ | ⟨-, -, rfl⟩ := execNext_cases h <;> rfl
  | xor => obtain ⟨-, rfl⟩ | ⟨-, -, rfl⟩ | ⟨-, -, rfl⟩ := execXor_cases h <;> rfl
  | crypt => obtain ⟨-, rfl⟩ | ⟨-, -, rfl⟩ | ⟨-, -, rfl⟩ := execCrypt_cases h <;> rfl
  | wrctr => obtain ⟨-, rfl⟩ | ⟨-, rfl⟩ := execWrctr_cases h <;> rfl
  | qrtest => cases h; rfl

/-- Settles O49: `exec_regs` names no staging register. -/
theorem commandsKeepTheStagingRegisters : Obligations.CommandsKeepTheStagingRegisters := by
  intro i s t h
  rw [exec_regs h]
  exact ⟨rfl, rfl, rfl, rfl, rfl, rfl⟩

/-! ### The writers of the state register (R21) -/

/-- The commands that write the counter words of the state register (R20, R21). -/
def WritesCounter (i : Instr) : Prop := i = .next ∨ i = .crypt ∨ i = .wrctr

/-- What a command can do to the state register: nothing, INIT's rebuilding, or a new counter. -/
theorem exec_st_cases (h : exec i s = .next t) :
    t.regs.st = s.regs.st ∨ i = .init ∨
    (WritesCounter i ∧ ∃ lo hi, t.regs.st = withCounter s.regs.st lo hi) := by
  cases i with
  | nop => rw [execNop_cases h]; exact .inl rfl
  | init => exact .inr (.inl rfl)
  | next =>
    obtain ⟨-, rfl⟩ | ⟨-, -, rfl⟩ | ⟨-, -, rfl⟩ := execNext_cases h
    · exact .inl rfl
    · exact .inl rfl
    · exact .inr (.inr ⟨.inl rfl, _, _, rfl⟩)
  | xor => left; obtain ⟨-, rfl⟩ | ⟨-, -, rfl⟩ | ⟨-, -, rfl⟩ := execXor_cases h <;> rfl
  | crypt =>
    obtain ⟨-, rfl⟩ | ⟨-, -, rfl⟩ | ⟨-, -, rfl⟩ := execCrypt_cases h
    · exact .inl rfl
    · exact .inl rfl
    · exact .inr (.inr ⟨.inr (.inl rfl), _, _, rfl⟩)
  | wrctr =>
    obtain ⟨-, rfl⟩ | ⟨-, rfl⟩ := execWrctr_cases h
    · exact .inl rfl
    · exact .inr (.inr ⟨.inr (.inr rfl), _, _, rfl⟩)
  | qrtest => cases h; exact .inl rfl

theorem engineStep_st_cases (h : engineStep s = .next t) :
    t.regs.st = s.regs.st ∨ decode s.engine.cur = .instr .init ∨
    ∃ i, decode s.engine.cur = .instr i ∧ WritesCounter i ∧
      ∃ lo hi, t.regs.st = withCounter s.regs.st lo hi := by
  obtain ⟨i, hdec, heq⟩ | ⟨-, heq⟩ := engineStep_cases s
  · obtain hsame | rfl | hcounter := exec_st_cases (heq ▸ h)
    · exact .inl hsame
    · exact .inr (.inl hdec)
    · exact .inr (.inr ⟨i, hdec, hcounter⟩)
  · cases heq ▸ h; exact .inl rfl

theorem hostStep_st_cases (h : hostStep s = .next t) :
    t.regs.st = s.regs.st ∨ ∃ during rest, s.env.host = .reset during :: rest := by
  obtain ⟨hregs, -⟩ | ⟨a, v, rest, -, rfl⟩ | ⟨during, rest, hhost, -⟩ := hostStep_cases h
  · exact .inl (by rw [hregs])
  · exact .inl (by rw [busWrite_regs, popHost_regs])
  · exact .inr ⟨during, rest, hhost⟩

/-- What a step can do to the state register: nothing, a reset, or the completion of a command that
writes it. -/
theorem step_st_cases (h : step s = .next t) :
    t.regs.st = s.regs.st ∨
    ((s.engine.phase = .idle ∨ 0 < s.env.delay) ∧
      ∃ during rest, s.env.host = .reset during :: rest) ∨
    (s.engine.phase = .busy ∧ s.env.delay = 0 ∧ (decode s.engine.cur = .instr .init ∨
      ∃ i, decode s.engine.cur = .instr i ∧ WritesCounter i ∧
        ∃ lo hi, t.regs.st = withCounter s.regs.st lo hi)) := by
  obtain ⟨hp, hd, heq⟩ | ⟨hp, heq⟩ | ⟨d, -, hd, heq⟩ := step_cases s
  · obtain hsame | hwrites := engineStep_st_cases (heq ▸ h)
    · exact .inl hsame
    · exact .inr (.inr ⟨hp, hd, hwrites⟩)
  · obtain hsame | hreset := hostStep_st_cases (heq ▸ h)
    · exact .inl hsame
    · exact .inr (.inl ⟨.inl hp, hreset⟩)
  · obtain hsame | hreset := hostStep_st_cases (heq ▸ h)
    · exact .inl hsame
    · exact .inr (.inl ⟨.inr (hd ▸ d.succ_pos), hreset⟩)

/-- Settles O47: a command that writes the counter words leaves the other fourteen alone. -/
theorem stateRegisterWriters : Obligations.StateRegisterWriters := by
  intro s t j hj h hne
  obtain hsame | hreset | ⟨hp, hd, hinit | ⟨i, hdec, hwriter, lo, hi, hst⟩⟩ := step_st_cases h
  · exact absurd (by rw [hsame]) hne
  · exact .inl hreset
  · exact .inr (.inl ⟨hp, hd, hinit⟩)
  · have hj' : j = 12 ∨ j = 13 := by
      by_contra! hother
      exact hne (by simp only [hst, withCounter_other _ _ _ j hj hother.1 hother.2])
    refine .inr (.inr ⟨hj', hp, hd, ?_⟩)
    obtain rfl | rfl | rfl := hwriter
    · exact .inl hdec
    · exact .inr (.inl hdec)
    · exact .inr (.inr hdec)

/-! ### While a command is in flight (R70, R241) -/

/-- While a command is in flight a host move but a reset reaches `OVERRUN` alone. -/
theorem hostStep_regs_of_busy (hp : s.engine.phase = .busy) (h : hostStep s = .next t)
    (hno : ∀ during rest, s.env.host ≠ .reset during :: rest) :
    t.regs = { s.regs with overrun := t.regs.overrun } ∧ t.engine = s.engine := by
  obtain ⟨hregs, hengine⟩ | ⟨a, v, rest, -, rfl⟩ | ⟨during, rest, hhost, -⟩ := hostStep_cases h
  · exact ⟨by rw [hregs], hengine⟩
  · rw [busWrite_of_busy (s := popHost s) a v hp]
    exact ⟨rfl, rfl⟩
  · exact absurd hhost (hno during rest)

/-- Settles O50: until the completion every move is the host's. -/
theorem effectsAppearAtCompletion : Obligations.EffectsAppearAtCompletion := by
  intro s t hp hd h hno
  obtain ⟨d, hdelay⟩ := Nat.exists_eq_succ_of_ne_zero hd.ne'
  exact hostStep_regs_of_busy (s := { s with env.delay := d }) hp
    (step_of_waiting hp hdelay ▸ h) hno

/-! ### The registers before the first INIT (R27, R41, R231) -/

/-- A property of the registers that reset has, and that host writes, commands and words that are
none keep, is kept by every step. -/
theorem step_keeps_regs {P : Regs → Prop} (hreset : P Regs.reset)
    (hwrite : ∀ a v s, P s.regs → P (busWrite a v s).regs)
    (hexec : ∀ i s t, exec i s = .next t → P s.regs → P t.regs)
    (hillegal : ∀ s, P s.regs → P (complete .illegalCommand s).regs)
    (h : step s = .next t) (hs : P s.regs) : P t.regs := by
  have hhost {u : State} (hu : P u.regs) (hstep : hostStep u = .next t) : P t.regs := by
    obtain ⟨hregs, -⟩ | ⟨a, v, rest, -, rfl⟩ | ⟨during, rest, -, hregs, -⟩ :=
      hostStep_cases hstep
    · exact hregs ▸ hu
    · exact hwrite a v _ hu
    · exact hregs ▸ hreset
  obtain ⟨-, -, heq⟩ | ⟨-, heq⟩ | ⟨d, -, -, heq⟩ := step_cases s
  · obtain ⟨i, -, hi⟩ | ⟨-, hi⟩ := engineStep_cases s
    · exact hexec i s t (hi ▸ heq ▸ h) hs
    · cases hi ▸ heq ▸ h
      exact hillegal s hs
  · exact hhost hs (heq ▸ h)
  · exact hhost (u := { s with env.delay := d }) hs (heq ▸ h)

theorem pristine_reset : Pristine Regs.reset := ⟨fun _ => rfl, fun _ => rfl, fun _ => rfl⟩

theorem pristine_of_initialized (h : r.initialized = true) : Pristine r := by
  constructor <;> exact fun hf => absurd hf (by simp [h])

theorem Pristine.busWrite (h : Pristine s.regs) (a : Addr) (v : Word) :
    Pristine (busWrite a v s).regs := by
  rw [busWrite_regs]
  exact { h with }

/-- A command writes the registers of `Pristine` only where it finds `INITIALIZED` set or sets it.
-/
theorem Pristine.exec (h : Pristine s.regs) (hexec : exec i s = .next t) : Pristine t.regs := by
  cases i with
  | nop => rw [execNop_cases hexec]; exact { h with }
  | init =>
    obtain ⟨-, rfl⟩ | ⟨-, rfl⟩ := execInit_cases hexec
    · exact pristine_of_initialized rfl
    · exact { h with }
  | next =>
    obtain ⟨-, rfl⟩ | ⟨-, -, rfl⟩ | ⟨hinit, -, rfl⟩ := execNext_cases hexec
    · exact { h with }
    · exact { h with }
    · exact pristine_of_initialized hinit
  | xor => obtain ⟨-, rfl⟩ | ⟨-, -, rfl⟩ | ⟨-, -, rfl⟩ := execXor_cases hexec <;> exact { h with }
  | crypt =>
    obtain ⟨-, rfl⟩ | ⟨-, -, rfl⟩ | ⟨hinit, -, rfl⟩ := execCrypt_cases hexec
    · exact { h with }
    · exact { h with }
    · exact pristine_of_initialized hinit
  | wrctr =>
    obtain ⟨-, rfl⟩ | ⟨hinit, rfl⟩ := execWrctr_cases hexec
    · exact { h with }
    · exact pristine_of_initialized hinit
  | qrtest => cases hexec; exact { h with }

/-- Settles O53: `Pristine` holds at reset, and what `step_keeps_regs` asks of the moves holds. -/
theorem stepKeepsUninitialisedRegistersZero : Obligations.StepKeepsUninitialisedRegistersZero :=
  fun _ _ hs h => step_keeps_regs pristine_reset (fun a v _ h => h.busWrite a v)
    (fun _ _ _ hexec h => h.exec hexec) (fun _ h => { h with }) h hs

/-- Settles O51: the clauses of R48 are about set flags, and reset clears them. -/
theorem resetSatisfiesTheInvariants : Obligations.ResetSatisfiesTheInvariants :=
  ⟨inv_reset, pristine_reset⟩

end Sys2Proof.Machine
end

section
/-! The host's program (R90, R91, R244): `wait`, asserted reads, what is left of the program after a
move, and the duty that keeps a program away from the hazard. -/

namespace Sys2Proof.Machine

variable {s t : State}

/-! ### `wait` (R91) -/

theorem waitRead_of_idle (h : s.engine.phase = .idle) :
    waitRead s = popHost (recordRead (statusWord s) s) := by
  simp only [waitRead, busRead_status, statusWord_ready_of_idle h, if_true]

theorem waitRead_of_busy (h : s.engine.phase = .busy) :
    waitRead s = recordRead (statusWord s) s := by
  simp only [waitRead, busRead_status, statusWord_ready_of_busy h, Bool.false_eq_true, if_false]

theorem step_of_wait_idle {rest : List HostOp} (hhost : s.env.host = .wait :: rest)
    (hi : s.engine.phase = .idle) : step s = .next (popHost (recordRead (statusWord s) s)) := by
  rw [step_of_idle hi, hostStep_of_wait hhost, waitRead_of_idle hi]

theorem step_of_wait_busy {rest : List HostOp} {d : Nat} (hhost : s.env.host = .wait :: rest)
    (hp : s.engine.phase = .busy) (hd : s.env.delay = d + 1) :
    step s = .next (recordRead (statusWord s) { s with env.delay := d }) := by
  rw [step_of_waiting hp hd, hostStep_of_wait (s := { s with env.delay := d }) hhost,
    waitRead_of_busy (s := { s with env.delay := d }) hp]
  rfl

/-- Settles O56: the loop's read ends it exactly when the engine is idle. -/
theorem waitEndsAtReady : Obligations.WaitEndsAtReady :=
  fun _ _ hhost =>
    ⟨fun hi => ⟨_, step_of_wait_idle hhost hi, by simp [hhost], rfl, rfl, rfl⟩,
      fun _ hp hd => ⟨_, step_of_wait_busy hhost hp hd, hhost, rfl, rfl, rfl, rfl⟩⟩

/-! ### Asserted reads and a second host (R90, R4) -/

theorem readIsOpen_of_idle (a : Addr) (h : s.engine.phase = .idle) : readIsOpen a s = false := by
  simp [readIsOpen, h]

theorem expectRead_of_idle (a : Addr) (v : Word) (h : s.engine.phase = .idle) :
    expectRead a v s =
      if busRead a s = v then .next (popHost (recordRead v s)) else .fault .assertionFailed := by
  simp [expectRead, readIsOpen_of_idle a h]

/-- Settles O59: an idle engine's reads are not open, so the assertion alone decides. -/
theorem hostStops : Obligations.HostStops := by
  refine ⟨fun s a v rest hi hhost => ?expect, fun s x rest hi hhost => ?secondHost⟩
  case expect =>
    rw [step_of_idle hi, hostStep_of_expect hhost, expectRead_of_idle a v hi]
    exact ⟨fun hv => ⟨_, if_pos hv, by simp [hhost], rfl, rfl⟩, fun hv => if_neg hv⟩
  case secondHost => rw [step_of_idle hi, hostStep_of_secondHost hhost]

/-! ### What a host move leaves of the program -/

@[simp] theorem busWrite_host (a : Addr) (v : Word) (s : State) :
    (busWrite a v s).env.host = s.env.host := by
  obtain ⟨-, h⟩ | ⟨-, -, h⟩ | ⟨r, -, -, h⟩ := busWrite_cases a v s
  · rw [h, dropWrite_env]
  · rw [h]
  · rw [h]
    cases r with
    | cmd => exact takeLatency_host v s.env
    | _ => rfl

/-- Each move of a host with an idle engine takes one item off its program. -/
theorem hostStep_host_of_idle (hi : s.engine.phase = .idle) (h : hostStep s = .next t) :
    t.env.host = s.env.host.tail := by
  match hhost : s.env.host with
  | [] => cases (hostStep_of_nil hhost).symm.trans h; exact hhost
  | .bus (.write a v) :: rest =>
    cases (hostStep_of_bus hhost).symm.trans h
    simp [transact, hhost]
  | .bus (.read a) :: rest =>
    cases (hostStep_of_bus hhost).symm.trans h
    simp [transact, hhost]
  | .expect a v :: rest =>
    obtain ⟨-, -, rfl⟩ := expectRead_cases ((hostStep_of_expect hhost).symm.trans h)
    simp [hhost]
  | .wait :: rest =>
    cases (hostStep_of_wait hhost).symm.trans h
    simp [waitRead_of_idle hi, hhost]
  | .reset during :: rest =>
    cases (hostStep_of_reset hhost).symm.trans h
    simp [hhost]
  | .secondHost x :: rest => cases (hostStep_of_secondHost hhost).symm.trans h

/-- A bus write makes an idle engine busy only as the acceptance of a command (R240). -/
theorem busWrite_phase_of_idle {a : Addr} {v : Word} (hi : s.engine.phase = .idle)
    (hbusy : (busWrite a v s).engine.phase = .busy) : a = regAddr .cmd := by
  obtain ⟨hp, -⟩ | ⟨-, -, h⟩ | ⟨r, -, hr, h⟩ := busWrite_cases a v s
  · simp [hi] at hp
  · simp [h, hi] at hbusy
  · by_cases hcmd : r = .cmd
    · subst hcmd; exact (regAddr_of_regAt hr).symm
    · simp [h, writeReg_engine hcmd, hi] at hbusy

/-- Of a host's moves with an idle engine a write of `CMD` alone makes it busy. -/
theorem hostStep_phase_of_idle (hi : s.engine.phase = .idle) (h : hostStep s = .next t)
    (hbusy : t.engine.phase = .busy) :
    ∃ c rest, s.env.host = .bus (.write (regAddr .cmd) c) :: rest := by
  obtain ⟨-, hengine⟩ | ⟨a, v, rest, hhost, rfl⟩ | ⟨during, rest, -, -, hengine, -⟩ :=
    hostStep_cases h
  · simp [hengine, hi] at hbusy
  · obtain rfl := busWrite_phase_of_idle (s := popHost s) hi hbusy
    exact ⟨v, rest, hhost⟩
  · simp [hengine, Engine.reset] at hbusy

/-! ### The host's duty (R244) -/

theorem startsWithWait_iff {p : List HostOp} :
    startsWithWait p = true ↔ ∃ rest, p = .wait :: rest := by
  fun_cases startsWithWait p <;> simp

theorem dutifulProgram_tail {p : List HostOp} (h : dutifulProgram p = true) :
    dutifulProgram p.tail = true := by
  cases p with
  | nil => rfl
  | cons op rest => exact (Bool.and_eq_true_iff.1 h).2

theorem startsWithWait_of_writesCommand {op : HostOp} {rest : List HostOp}
    (h : dutifulProgram (op :: rest) = true) (hop : writesCommand op = true) :
    startsWithWait rest = true := by
  simpa [hop] using (Bool.and_eq_true_iff.1 h).1

theorem dutiful_of_idle (hprogram : dutifulProgram s.env.host = true)
    (hi : s.engine.phase = .idle) : Dutiful s :=
  ⟨hprogram, fun hp => absurd (hi.symm.trans hp) nofun⟩

theorem Dutiful.host_of_busy (h : Dutiful s) (hp : s.engine.phase = .busy) :
    ∃ rest, s.env.host = .wait :: rest :=
  startsWithWait_iff.1 (h.2 hp)

/-- The hazard is a move other than `wait` while a command is in flight. -/
theorem Dutiful.hazard_eq_false (h : Dutiful s) : hazard s = false := by
  cases hp : s.engine.phase with
  | idle => simp [hazard, hp]
  | busy =>
    obtain ⟨rest, hhost⟩ := h.host_of_busy hp
    simp [hazard, hp, hhost]

/-- A host that keeps its duty goes on keeping it: a command it writes is followed by a `wait`,
which stays in place until the engine is idle. -/
theorem Dutiful.step (h : Dutiful s) (hstep : step s = .next t) : Dutiful t := by
  have hprogram := h.1
  obtain ⟨hp, -, heq⟩ | ⟨hi, heq⟩ | ⟨d, hp, hd, -⟩ := step_cases s
  · obtain ⟨u, hu, hidle, henv⟩ := exists_engineStep s
    cases hu.symm.trans (heq.symm.trans hstep)
    exact dutiful_of_idle (henv ▸ hprogram) hidle
  · have hmove : hostStep s = .next t := heq ▸ hstep
    have hhost := hostStep_host_of_idle hi hmove
    refine ⟨hhost ▸ dutifulProgram_tail hprogram, fun hbusy => ?_⟩
    obtain ⟨c, rest, hcmd⟩ := hostStep_phase_of_idle hi hmove hbusy
    rw [hhost, hcmd]
    exact startsWithWait_of_writesCommand (hcmd ▸ hprogram) rfl
  · obtain ⟨rest, hhost⟩ := h.host_of_busy hp
    cases (step_of_wait_busy hhost hp hd).symm.trans hstep
    exact h

/-- Settles O54: `OVERRUN` is newly set by a write while a command is in flight alone, where a
dutiful host is at a `wait`. -/
theorem dutyAvoidsTheHazard : Obligations.DutyAvoidsTheHazard := by
  refine fun s t h hstep => ⟨h.hazard_eq_false, h.step hstep, fun ht => ?_⟩
  obtain hsame | ⟨⟨hp, -, a, v, rest, hwrite⟩, -⟩ | ⟨-, hclear⟩ | ⟨-, hclear⟩ :=
    step_overrun_cases hstep
  · exact hsame ▸ ht
  · obtain ⟨rest', hwait⟩ := h.host_of_busy hp
    cases hwrite.symm.trans hwait
  · simp [hclear] at ht
  · simp [hclear] at ht

end Sys2Proof.Machine
end

section
/-! Runs (R243, R247): a command in flight completes whatever its latency, a finished machine stays
as it is, and two runs that differ in latencies, draws and recorded reads make the same moves. -/

namespace Sys2Proof.Machine

variable {s t u v : State}

/-! ### Runs of the machine -/

theorem core_run_succ_cases {n : Nat} (h : Host.Core.run Sys2Proof.core (n + 1) s = .next t) :
    ∃ u, step s = .next u ∧ Host.Core.run Sys2Proof.core n u = .next t := by
  cases hstep : step s with
  | next u => exact ⟨u, rfl, (core_run_succ n hstep).symm.trans h⟩
  | fault f => cases (run_succ_of_fault Sys2Proof.core n s f hstep).symm.trans h
  | refused r => cases (run_succ_of_refused Sys2Proof.core n s r hstep).symm.trans h

theorem core_run_add {m : Nat} (n : Nat) (h : Host.Core.run Sys2Proof.core m s = .next t) :
    Host.Core.run Sys2Proof.core (m + n) s = Host.Core.run Sys2Proof.core n t := by
  induction m generalizing s with
  | zero => cases h; rw [Nat.zero_add]
  | succ m ih =>
    obtain ⟨u, hstep, hrun⟩ := core_run_succ_cases h
    rw [Nat.succ_add, core_run_succ _ hstep, ih hrun]

theorem step_of_finished (h : finished s) : step s = .next s := by
  obtain ⟨hhost, hi⟩ := h
  rw [step_of_idle hi, hostStep_of_nil hhost]

theorem run_of_finished (h : finished s) (n : Nat) :
    Host.Core.run Sys2Proof.core n s = .next s := by
  induction n with
  | zero => rfl
  | succ n ih => rw [core_run_succ n (step_of_finished h), ih]

/-! ### States that differ on the host's side -/

/-- Two states with the same block: the registers and the engine, not the host's side. -/
structure SameBlock (s t : State) : Prop where
  regs : s.regs = t.regs
  engine : s.engine = t.engine

theorem SameBlock.symm (h : SameBlock s t) : SameBlock t s := ⟨h.regs.symm, h.engine.symm⟩

theorem SameBlock.trans (h : SameBlock s t) (h' : SameBlock t u) : SameBlock s u :=
  ⟨h.regs.trans h'.regs, h.engine.trans h'.engine⟩

/-- A state with the same block is the state with another host's side. -/
theorem SameBlock.eq_with_env (h : SameBlock s t) : t = { s with env := t.env } := by
  rw [h.regs, h.engine]

/-- No command reads the host's side of the state. -/
theorem exec_with_env {i : Instr} (h : exec i s = .next t) (e : Env) :
    exec i { s with env := e } = .next { t with env := e } := by
  cases i with
  | nop => rw [execNop_cases h]; rfl
  | init =>
    obtain ⟨hlegal, rfl⟩ | ⟨hlegal, rfl⟩ := execInit_cases h
    · exact execInit_of_legal hlegal
    · exact execInit_of_illegal hlegal
  | next =>
    obtain ⟨hinit, rfl⟩ | ⟨hinit, hx, rfl⟩ | ⟨hinit, hx, rfl⟩ := execNext_cases h
    · exact execNext_of_uninitialized hinit
    · exact execNext_of_exhausted hinit hx
    · exact execNext_of_ready hinit hx
  | xor =>
    obtain ⟨hinit, rfl⟩ | ⟨hinit, hk, rfl⟩ | ⟨hinit, hk, rfl⟩ := execXor_cases h
    · exact execXor_of_uninitialized hinit
    · exact execXor_of_no_keystream hinit hk
    · exact execXor_of_ready hinit hk
  | crypt =>
    obtain ⟨hinit, rfl⟩ | ⟨hinit, hx, rfl⟩ | ⟨hinit, hx, rfl⟩ := execCrypt_cases h
    · exact execCrypt_of_uninitialized hinit
    · exact execCrypt_of_exhausted hinit hx
    · exact execCrypt_of_ready hinit hx
  | wrctr =>
    obtain ⟨hinit, rfl⟩ | ⟨hinit, rfl⟩ := execWrctr_cases h
    · exact execWrctr_of_uninitialized hinit
    · exact execWrctr_of_initialized hinit
  | qrtest => cases h; rfl

theorem engineStep_env (h : engineStep s = .next t) : t.env = s.env := by
  obtain ⟨u, hu, -, henv⟩ := exists_engineStep s
  cases hu.symm.trans h
  exact henv

theorem SameBlock.engineStep (h : SameBlock s t) (hs : engineStep s = .next u) :
    engineStep t = .next { u with env := t.env } := by
  rw [h.eq_with_env]
  obtain ⟨i, hdec, heq⟩ | ⟨hdec, heq⟩ := engineStep_cases s
  · rw [engineStep_of_instr (s := { s with env := t.env }) hdec]
    exact exec_with_env (heq ▸ hs) t.env
  · cases heq.symm.trans hs
    exact engineStep_of_no_instr (s := { s with env := t.env }) hdec

theorem SameBlock.writeReg (h : SameBlock s t) (r : Reg) (w : Word) :
    SameBlock (writeReg r w s) (writeReg r w t) := by
  rw [h.eq_with_env]
  cases r <;> exact ⟨rfl, rfl⟩

theorem SameBlock.busWrite (h : SameBlock s t) (a : Addr) (w : Word) :
    SameBlock (busWrite a w s) (busWrite a w t) := by
  obtain ⟨hp, hs⟩ | ⟨hi, hr, hs⟩ | ⟨r, hi, hr, hs⟩ := busWrite_cases a w s
  · rw [hs, busWrite_of_busy a w (h.engine ▸ hp)]
    exact ⟨by simp [h.regs], h.engine⟩
  · rw [hs, busWrite_unmapped w (h.engine ▸ hi) hr]
    exact h
  · rw [hs, busWrite_of_regAt w (h.engine ▸ hi) hr]
    exact h.writeReg r w

/-- The move of a host at one item of its program changes two blocks that are the same alike. -/
theorem SameBlock.hostStep (h : SameBlock s t) (hhost : s.env.host = t.env.host)
    (hs : hostStep s = .next u) (ht : hostStep t = .next v) : SameBlock u v := by
  match hitem : s.env.host with
  | [] =>
    cases (hostStep_of_nil hitem).symm.trans hs
    cases (hostStep_of_nil (hhost ▸ hitem)).symm.trans ht
    exact h
  | .bus x :: rest =>
    cases (hostStep_of_bus hitem).symm.trans hs
    cases (hostStep_of_bus (hhost ▸ hitem)).symm.trans ht
    cases x with
    | write a w => exact SameBlock.busWrite (s := popHost s) (t := popHost t) ⟨h.regs, h.engine⟩ a w
    | read a => exact ⟨h.regs, h.engine⟩
  | .expect a w :: rest =>
    obtain ⟨-, -, rfl⟩ := expectRead_cases ((hostStep_of_expect hitem).symm.trans hs)
    obtain ⟨-, -, rfl⟩ := expectRead_cases ((hostStep_of_expect (hhost ▸ hitem)).symm.trans ht)
    exact ⟨h.regs, h.engine⟩
  | .wait :: rest =>
    cases (hostStep_of_wait hitem).symm.trans hs
    cases (hostStep_of_wait (hhost ▸ hitem)).symm.trans ht
    exact ⟨by simp [h.regs], by simp [h.engine]⟩
  | .reset during :: rest =>
    cases (hostStep_of_reset hitem).symm.trans hs
    cases (hostStep_of_reset (hhost ▸ hitem)).symm.trans ht
    exact ⟨by simp, by simp⟩
  | .secondHost x :: rest => cases (hostStep_of_secondHost hitem).symm.trans hs

/-! ### A command in flight completes (R243) -/

/-- A host with nothing to do, or at a `wait`, leaves a command in flight alone. -/
def Resting (p : List HostOp) : Prop := p = [] ∨ startsWithWait p = true

/-- While a resting host watches, a step of a command in flight uses one engine cycle. -/
theorem step_of_resting {d : Nat} (hrest : Resting s.env.host) (hp : s.engine.phase = .busy)
    (hd : s.env.delay = d + 1) :
    ∃ t, step s = .next t ∧ SameBlock s t ∧ t.env.host = s.env.host ∧ t.env.delay = d := by
  obtain hnil | hwait := hrest
  · exact ⟨_, (step_of_waiting hp hd).trans (hostStep_of_nil hnil), ⟨rfl, rfl⟩, rfl, rfl⟩
  · obtain ⟨rest, hhost⟩ := startsWithWait_iff.1 hwait
    exact ⟨_, step_of_wait_busy hhost hp hd, ⟨rfl, rfl⟩, rfl, rfl⟩

/-- At any latency a command in flight comes to its completion, the host left where it was. -/
theorem run_completes (hrest : Resting s.env.host) (hp : s.engine.phase = .busy)
    (hu : engineStep s = .next u) :
    ∃ n t, Host.Core.run Sys2Proof.core n s = .next t ∧ SameBlock t u ∧
      t.env.host = s.env.host := by
  induction hd : s.env.delay generalizing s u with
  | zero =>
    exact ⟨1, u, core_run_succ 0 ((step_of_completion hp hd).trans hu), ⟨rfl, rfl⟩,
      congrArg Env.host (engineStep_env hu)⟩
  | succ d ih =>
    obtain ⟨s', hstep, hsame, hhost, hd'⟩ := step_of_resting hrest hp hd
    obtain ⟨n, t, hrun, ⟨hregs, hengine⟩, hhost'⟩ :=
      ih (hhost ▸ hrest) (hsame.engine ▸ hp) (hsame.engineStep hu) hd'
    exact ⟨n + 1, t, (core_run_succ n hstep).trans hrun, ⟨hregs, hengine⟩, hhost'.trans hhost⟩

/-- Settles O55: with nothing left to do the host rests until the command in flight has completed.
-/
theorem runsEndIdle : Obligations.RunsEndIdle := by
  refine ⟨fun s h => step_of_finished h, fun s hhost => ?_⟩
  cases hp : s.engine.phase with
  | idle => exact ⟨0, s, rfl, hhost, hp⟩
  | busy =>
    obtain ⟨u, hu, hidle, -⟩ := exists_engineStep s
    obtain ⟨n, t, hrun, hsame, hhost'⟩ := run_completes (.inl hhost) hp hu
    exact ⟨n, t, hrun, hhost'.trans hhost, hsame.engine ▸ hidle⟩

/-- Settles O57: the word is accepted, it completes while the host waits, and the next read of
`STATUS` ends the wait. -/
theorem runCommandHandshake : Obligations.RunCommandHandshake := by
  intro s c rest hi hhost
  have haccept : step s = .next (accept c (popHost s)) := by
    rw [step_of_idle hi, hostStep_of_bus hhost, transact,
      busWrite_regAddr (s := popHost s) .cmd c hi]
    rfl
  have hwait : (accept c (popHost s)).env.host = .wait :: rest := by simp [hhost]
  obtain ⟨u, hu, hidle, -⟩ :=
    exists_engineStep { s with engine.phase := .busy, engine.cur := c }
  have hsame : SameBlock { s with engine.phase := .busy, engine.cur := c }
    (accept c (popHost s)) := ⟨rfl, rfl⟩
  obtain ⟨n, t, hrun, ht, hhost'⟩ :=
    run_completes (.inr (startsWithWait_iff.2 ⟨rest, hwait⟩)) rfl (hsame.engineStep hu)
  have hstop : t.env.host = .wait :: rest := hhost'.trans hwait
  have hend := step_of_wait_idle hstop (ht.engine ▸ hidle)
  refine ⟨n + 1 + 1, popHost (recordRead (statusWord t) t), u, ?run, hu, ht.regs,
    ht.engine ▸ hidle, congrArg List.tail hstop⟩
  rw [core_run_succ _ haccept, core_run_add 1 hrun, core_run_succ 0 hend]
  rfl

/-! ### Latencies are unobservable at the end (R244, R247) -/

/-- No engine cycle stands between the state and its next move. -/
def LatencyPassed (s : State) : Prop := s.engine.phase = .busy → s.env.delay = 0

theorem latencyPassed_of_idle (h : s.engine.phase = .idle) : LatencyPassed s :=
  fun hp => absurd (h.symm.trans hp) nofun

/-- Where neither run has engine cycles to wait for, both make the same move. -/
theorem SameBlock.step (h : SameBlock s t) (hhost : s.env.host = t.env.host)
    (hps : LatencyPassed s) (hpt : LatencyPassed t) (hs : step s = .next u)
    (ht : step t = .next v) : SameBlock u v ∧ u.env.host = v.env.host := by
  cases hp : s.engine.phase with
  | busy =>
    have hp' : t.engine.phase = .busy := h.engine ▸ hp
    rw [step_of_completion hp (hps hp)] at hs
    rw [step_of_completion hp' (hpt hp')] at ht
    cases (h.engineStep hs).symm.trans ht
    exact ⟨⟨rfl, rfl⟩, (congrArg Env.host (engineStep_env hs)).trans hhost⟩
  | idle =>
    have hp' : t.engine.phase = .idle := h.engine ▸ hp
    rw [step_of_idle hp] at hs
    rw [step_of_idle hp'] at ht
    refine ⟨h.hostStep hhost hs ht, ?_⟩
    rw [hostStep_host_of_idle hp hs, hostStep_host_of_idle hp' ht, hhost]

/-- A dutiful run that ends can be joined where the latency of the command in flight has passed. -/
theorem run_from_latencyPassed {n : Nat} (hd : Dutiful s)
    (hrun : Host.Core.run Sys2Proof.core n s = .next t) (ht : finished t) :
    ∃ m ≤ n, ∃ u, SameBlock s u ∧ u.env.host = s.env.host ∧ Dutiful u ∧ LatencyPassed u ∧
      Host.Core.run Sys2Proof.core m u = .next t := by
  induction n generalizing s with
  | zero =>
    cases hrun
    exact ⟨0, le_rfl, t, ⟨rfl, rfl⟩, rfl, hd, latencyPassed_of_idle ht.2, rfl⟩
  | succ n ih =>
    obtain ⟨-, hdelay, -⟩ | ⟨hi, -⟩ | ⟨d, hp, hdelay, -⟩ := step_cases s
    · exact ⟨n + 1, le_rfl, s, ⟨rfl, rfl⟩, rfl, hd, fun _ => hdelay, hrun⟩
    · exact ⟨n + 1, le_rfl, s, ⟨rfl, rfl⟩, rfl, hd, latencyPassed_of_idle hi, hrun⟩
    · obtain ⟨s', hstep, hsame, hhost, -⟩ := step_of_resting (.inr (hd.2 hp)) hp hdelay
      obtain ⟨m, hm, u, hsame', hhost', hu⟩ :=
        ih (hd.step hstep) ((core_run_succ n hstep).symm.trans hrun)
      exact ⟨m, Nat.le_succ_of_le hm, u, hsame.trans hsame', hhost'.trans hhost, hu⟩

theorem finished_of_sameBlock (h : SameBlock s t) (hhost : s.env.host = t.env.host)
    (hs : finished s) : finished t :=
  ⟨hhost ▸ hs.1, h.engine ▸ hs.2⟩

/-- A run from a state that is not finished to one that is takes a first step. -/
theorem run_unfinished_cases {n : Nat} (hs : ¬finished s)
    (hrun : Host.Core.run Sys2Proof.core n s = .next t) (ht : finished t) :
    ∃ k < n, ∃ u, step s = .next u ∧ Host.Core.run Sys2Proof.core k u = .next t := by
  cases n with
  | zero => cases hrun; exact absurd ht hs
  | succ k =>
    obtain ⟨u, hstep, hrest⟩ := core_run_succ_cases hrun
    exact ⟨k, k.lt_succ_self, u, hstep, hrest⟩

/-- Two dutiful runs to the end from the same block and program end with the same registers: each is
joined where its latency has passed, and there the next moves are the same. -/
theorem finished_regs_eq {s₁ s₂ t₁ t₂ : State} {n₁ n₂ : Nat} (hd₁ : Dutiful s₁) (hd₂ : Dutiful s₂)
    (hsame : SameBlock s₁ s₂) (hhost : s₁.env.host = s₂.env.host)
    (hrun₁ : Host.Core.run Sys2Proof.core n₁ s₁ = .next t₁) (ht₁ : finished t₁)
    (hrun₂ : Host.Core.run Sys2Proof.core n₂ s₂ = .next t₂) (ht₂ : finished t₂) :
    t₁.regs = t₂.regs := by
  induction n₁ using Nat.strong_induction_on generalizing s₁ s₂ n₂ with
  | _ n₁ ih =>
    obtain ⟨m₁, hm₁, u₁, hu₁, hhost₁, hdu₁, hpassed₁, hrest₁⟩ :=
      run_from_latencyPassed hd₁ hrun₁ ht₁
    obtain ⟨m₂, -, u₂, hu₂, hhost₂, hdu₂, hpassed₂, hrest₂⟩ :=
      run_from_latencyPassed hd₂ hrun₂ ht₂
    have hu : SameBlock u₁ u₂ := hu₁.symm.trans (hsame.trans hu₂)
    have huhost : u₁.env.host = u₂.env.host := hhost₁.trans (hhost.trans hhost₂.symm)
    by_cases hend : finished u₁
    · cases (run_of_finished hend m₁).symm.trans hrest₁
      cases (run_of_finished (finished_of_sameBlock hu huhost hend) m₂).symm.trans hrest₂
      exact hu.regs
    · have hend' : ¬finished u₂ := mt (finished_of_sameBlock hu.symm huhost.symm) hend
      obtain ⟨k₁, hk₁, v₁, hstep₁, hv₁⟩ := run_unfinished_cases hend hrest₁ ht₁
      obtain ⟨k₂, -, v₂, hstep₂, hv₂⟩ := run_unfinished_cases hend' hrest₂ ht₂
      obtain ⟨hv, hvhost⟩ := hu.step huhost hpassed₁ hpassed₂ hstep₁ hstep₂
      exact ih k₁ (hk₁.trans_le hm₁) (hdu₁.step hstep₁) (hdu₂.step hstep₂) hv hvhost hv₁ hv₂

/-- Settles O58: the same registers and engine are the same block. -/
theorem latencyIsUnobservableAtTheEnd : Obligations.LatencyIsUnobservableAtTheEnd :=
  fun _ _ _ _ _ _ hd₁ hd₂ hregs hengine hhost hrun₁ ht₁ hrun₂ ht₂ =>
    finished_regs_eq hd₁ hd₂ ⟨hregs, hengine⟩ hhost hrun₁ ht₁ hrun₂ ht₂

end Sys2Proof.Machine
end

section
/-! The blocks after an INIT (R100, R110, R165): what INIT reads, and the counter and the block of
the k-th NEXT after it. -/

namespace Sys2Proof.Machine

variable {s : State}

/-! ### What INIT reads (R100, R110) -/

theorem counter_initBlock (k : KeyLen) (key : Vector Word 8) (nonce : Vector Word 2) :
    counter (initBlock k key nonce) = 0 := by
  simp [counter, initBlock]

/-- Settles O8: INIT builds the state register and the active configuration from `CONFIG`, `KEY` and
`NONCE`, and the block mentions nothing else. -/
theorem reinitialisationReproduces : Obligations.ReinitialisationReproduces := by
  intro s₁ s₂ hconfig hkey hnonce hlegal
  refine ⟨_, _, _, _, execInit_of_legal hlegal, execInit_of_legal (hconfig ▸ hlegal), ?st,
    counter_initBlock _ _ _, rfl, rfl, execNext_of_ready rfl rfl, execNext_of_ready rfl rfl, ?ks⟩
  case st => simp [initRegs, hconfig, hkey, hnonce]
  case ks => simp [initRegs, activeRounds, hconfig, hkey, hnonce]

/-- With a 128-bit key the first four key words fill both halves of the key (R102). -/
theorem initBlock_k128_congr {key key' : Vector Word 8} (nonce : Vector Word 2)
    (h : ∀ i (_ : i < 4), key[i] = key'[i]) :
    initBlock .k128 key nonce = initBlock .k128 key' nonce := by
  simp [initBlock, keyWords, h]

/-- Settles O9: the state register is `initBlock` of the staged operands. -/
theorem init128IgnoresUpperKey : Obligations.Init128IgnoresUpperKey := by
  intro s₁ s₂ hconfig hnonce hk hlegal hkey
  refine ⟨_, _, execInit_of_legal hlegal, execInit_of_legal (hconfig ▸ hlegal), ?_⟩
  simp only [complete_regs, initRegs, ← hconfig, ← hnonce, hk]
  exact initBlock_k128_congr _ hkey

/-! ### The state register at a counter value (R20, R161) -/

/-- The state register with its counter words holding a 64-bit number (R20). -/
def atCounter (b : Block) (c : BitVec 64) : Block :=
  withCounter b (c.extractLsb' 0 32) (c.extractLsb' 32 32)

@[simp] theorem atCounter_append (b : Block) (lo hi : Word) :
    atCounter b (hi ++ lo) = withCounter b lo hi := by
  rw [atCounter, BitVec.extractLsb'_append_eq_right, BitVec.extractLsb'_append_eq_left]

theorem withCounter_withCounter (b : Block) (lo hi lo' hi' : Word) :
    withCounter (withCounter b lo hi) lo' hi' = withCounter b lo' hi' := by
  refine Vector.ext fun i hi => ?_
  by_cases h12 : i = 12
  · subst h12; simp
  · by_cases h13 : i = 13
    · subst h13; simp
    · simp only [withCounter_other _ _ _ i hi h12 h13]

@[simp] theorem atCounter_atCounter (b : Block) (c d : BitVec 64) :
    atCounter (atCounter b c) d = atCounter b d :=
  withCounter_withCounter _ _ _ _ _

@[simp] theorem counter_atCounter (b : Block) (c : BitVec 64) : counter (atCounter b c) = c := by
  rw [atCounter, counter_withCounter,
    BitVec.extractLsb'_append_extractLsb'_eq_extractLsb' (start₂ := 32) (start₁ := 0) rfl]
  exact BitVec.extractLsb'_eq_self

theorem atCounter_counter (b : Block) : atCounter b (counter b) = b := by
  rw [counter, atCounter_append, withCounter, Vector.set_getElem_self, Vector.set_getElem_self]

theorem generate_st (s : State) :
    (generate s).regs.st = atCounter s.regs.st (counter s.regs.st + 1) := by
  rw [counter, ← ctrInc_append, atCounter_append, generate_regs]

/-! ### A run of NEXTs (R165) -/

/-- The state register stands at the counter value c of the blocks made from b with R rounds, and
another NEXT will give a block. -/
structure Streaming (b : Block) (rounds : BitVec 8) (c : Nat) (r : Regs) : Prop where
  st : r.st = atCounter b (BitVec.ofNat 64 c)
  rounds : r.activeConfig.rounds = rounds
  initialized : r.initialized = true
  exhausted : r.exhausted = false

/-- NEXT moves the counter one further, and exhausts it at its last value only. -/
theorem Streaming.next {b : Block} {rounds : BitVec 8} {c : Nat} (h : Streaming b rounds c s.regs)
    (hc : c < 2 ^ 64 - 1) :
    ∃ t, exec .next s = .next t ∧ Streaming b rounds (c + 1) t.regs := by
  refine ⟨_, execNext_of_ready h.initialized h.exhausted, ?st, h.rounds, h.initialized,
    ?exhausted⟩
  case st =>
    rw [complete_regs, generate_st, h.st, counter_atCounter, atCounter_atCounter,
      BitVec.ofNat_add]
    rfl
  case exhausted =>
    refine eq_false_of_ne_true fun hx => ?_
    have hlast := (generate_exhausted_iff s).1 hx
    rw [h.st, counter_atCounter, BitVec.toNat_ofNat] at hlast
    omega

theorem repeatNext_succ {t : State} (k : Nat) (h : exec .next s = .next t) :
    repeatNext (k + 1) s = repeatNext k t := by
  simp only [repeatNext, h]

/-- As long as the counter has not reached its last value, k NEXTs move it k further. -/
theorem Streaming.repeatNext {b : Block} {rounds : BitVec 8} {c : Nat} (k : Nat)
    (h : Streaming b rounds c s.regs) (hc : c + k ≤ 2 ^ 64 - 1) :
    ∃ t, repeatNext k s = .next t ∧ Streaming b rounds (c + k) t.regs := by
  induction k generalizing s c with
  | zero => exact ⟨s, rfl, h⟩
  | succ k ih =>
    obtain ⟨u, hu, hnext⟩ := h.next (by omega)
    obtain ⟨t, ht, hlast⟩ := ih hnext (by omega)
    rw [Nat.succ_add_eq_add_succ] at hlast
    exact ⟨t, (repeatNext_succ k hu).trans ht, hlast⟩

theorem atCounter_ofNat (b : Block) (k : Nat) : atCounter b (BitVec.ofNat 64 k) =
    (b.set 12 (BitVec.ofNat 32 k)).set 13 (BitVec.ofNat 32 (k / 2 ^ 32)) := by
  have hlo : (BitVec.ofNat 64 k).extractLsb' 0 32 = BitVec.ofNat 32 k := by
    apply BitVec.eq_of_toNat_eq
    simp only [BitVec.extractLsb'_toNat, BitVec.toNat_ofNat, Nat.shiftRight_zero]
    omega
  have hhi : (BitVec.ofNat 64 k).extractLsb' 32 32 = BitVec.ofNat 32 (k / 2 ^ 32) := by
    apply BitVec.eq_of_toNat_eq
    simp only [BitVec.extractLsb'_toNat, BitVec.toNat_ofNat, Nat.shiftRight_eq_div_pow]
    omega
  rw [atCounter, withCounter, hlo, hhi]

/-- After a legal INIT the state register stands at counter 0. -/
theorem streaming_of_init (s : State) :
    Streaming (initRegs s.regs).st s.regs.config.rounds 0
      (complete .ok { s with regs := initRegs s.regs }).regs where
  st := by
    have hzero : counter (initRegs s.regs).st = BitVec.ofNat 64 0 := counter_initBlock _ _ _
    rw [← hzero, atCounter_counter]
    rfl
  rounds := rfl
  initialized := rfl
  exhausted := rfl

/-- Settles O14: the k NEXTs bring the counter from 0 to k, and the next one gives the block there.
-/
theorem blockSequence : Obligations.BlockSequence := by
  intro s k hlegal hk
  obtain ⟨v, hrun, hv⟩ := (streaming_of_init s).repeatNext k (by omega)
  obtain ⟨t, hnext, hks⟩ := execNext_ks_of_ready hv.initialized hv.exhausted
  rw [hv.st, hv.rounds, Nat.zero_add, atCounter_ofNat] at hks
  exact ⟨_, v, t, execInit_of_legal hlegal, hrun, hnext, hks⟩

end Sys2Proof.Machine
end

section
/-! Short blocks under XOR (R184): the combiner on the byte views of its operands. -/

namespace Sys2Proof.Machine

/-- The byte view of the combined block is the exclusive or of the byte views (R181). -/
theorem ser_xorBlock (p k : Block) :
    ser (xorBlock p k) = List.zipWith (· ^^^ ·) (ser p) (ser k) := by
  refine List.ext_getElem (by simp) fun n hn _ => ?_
  have hn' : n < 64 := ser_length (xorBlock p k) ▸ hn
  have hbyte := ser_xorBlock_getD p k hn'
  simp only [List.getD_eq_getElem _ _ ((ser_length _).symm ▸ hn')] at hbyte
  rw [hbyte, List.getElem_zipWith]

/-- Settles O19: the first n bytes of the exclusive or are that of the first n bytes. -/
theorem partialBlockPrefix : Obligations.PartialBlockPrefix := by
  intro s d n h hk hprefix
  refine ⟨_, _, execXor_of_ready h hk, execXor_of_ready h hk, ?_⟩
  change (ser (xorBlock d s.regs.ks)).take n = (ser (xorBlock s.regs.dataIn s.regs.ks)).take n
  rw [ser_xorBlock, ser_xorBlock, List.take_zipWith, List.take_zipWith, hprefix]

end Sys2Proof.Machine
end

section
/-! The permutation as double rounds (R142 to R145). -/

namespace Sys2Proof.Machine

theorem permute_even_succ (s : Block) (r : Nat) :
    permute s (2 * r + 1) = columnPass (permute s (2 * r)) :=
  if_pos (Nat.mul_mod_right 2 r)

theorem permute_odd_succ (s : Block) (r : Nat) :
    permute s (2 * r + 2) = diagonalPass (permute s (2 * r + 1)) :=
  if_neg (by omega)

/-- A column pass and a diagonal pass after it are one double round (R144). -/
theorem permute_two_mul (s : Block) (n : Nat) : permute s (2 * n) = doubleRound^[n] s := by
  induction n with
  | zero => rfl
  | succ n ih =>
    rw [Function.iterate_succ_apply', ← ih, Nat.mul_succ, permute_odd_succ, permute_even_succ]
    rfl

/-- Settles O27: 8, 12 and 20 rounds are the cases of `permute_two_mul` at 4, 6 and 10. -/
theorem permutationIsDoubleRounds : Obligations.PermutationIsDoubleRounds :=
  fun s => ⟨permute_even_succ s, permute_odd_succ s, permute_two_mul s, permute_two_mul s 4,
    permute_two_mul s 6, permute_two_mul s 10⟩

end Sys2Proof.Machine
end
